-- ==== Sys2Proof/Word.lean ====
section
/-!
DEFINITION. The two word types of CORE and their plainest arithmetic (00_scope.md R7, R8, R9): bytes and 16-bit
words wrap modulo 2^8 and 2^16, and bit 0 is the least significant bit.
-/
namespace Sys2Proof

/-- An 8-bit value: a register, a memory cell, a port number, a port's data (R7). -/
abbrev Byte := BitVec 8

/-- A 16-bit value: a register pair, PC, SP, IX, IY, a memory address (R7). -/
abbrev Word := BitVec 16

/-- R9: `h :: l = h * 256 + l`, the first the high byte. -/
def joinBytes (h l : Byte) : Word := BitVec.ofNat 16 (h.toNat * 256 + l.toNat)

/-- R9: `hi(w) = w[15:8]`. -/
def hiByte (w : Word) : Byte := BitVec.ofNat 8 (w.toNat / 256)

/-- R9: `lo(w) = w[7:0]`. -/
def loByte (w : Word) : Byte := BitVec.ofNat 8 (w.toNat % 256)

theorem joinBytes_toNat (h l : Byte) : (joinBytes h l).toNat = h.toNat * 256 + l.toNat := by
  have hh := h.isLt
  have hl := l.isLt
  simp only [joinBytes, BitVec.toNat_ofNat]
  omega

theorem hiByte_toNat (w : Word) : (hiByte w).toNat = w.toNat / 256 := by
  have hw := w.isLt
  simp only [hiByte, BitVec.toNat_ofNat]
  omega

theorem loByte_toNat (w : Word) : (loByte w).toNat = w.toNat % 256 := by
  have hw := w.isLt
  simp only [loByte, BitVec.toNat_ofNat]
  omega

@[simp] theorem hiByte_joinBytes (h l : Byte) : hiByte (joinBytes h l) = h := by
  have hl := l.isLt
  apply BitVec.eq_of_toNat_eq
  simp only [hiByte, joinBytes_toNat, BitVec.toNat_ofNat]
  omega

@[simp] theorem loByte_joinBytes (h l : Byte) : loByte (joinBytes h l) = l := by
  have hl := l.isLt
  apply BitVec.eq_of_toNat_eq
  simp only [loByte, joinBytes_toNat, BitVec.toNat_ofNat]
  omega

@[simp] theorem joinBytes_hiByte_loByte (w : Word) : joinBytes (hiByte w) (loByte w) = w := by
  have hw := w.isLt
  apply BitVec.eq_of_toNat_eq
  simp only [joinBytes_toNat, hiByte, loByte, BitVec.toNat_ofNat]
  omega

end Sys2Proof
end

