-- ==== Sys2Proof/Syntax.lean ====
section
/-!
DEFINITION. Syntax: the operand types of 10_state.md R40 to R43 and 30_encoding.md R115 to R117, and the one
inductive `Instr`, one constructor for each of the 199 rows of spec/opcode_table.json, in the table's order.
-/
namespace Sys2Proof

/-- R40: the 3-bit register field without its code 6, which is a memory operand and has instructions of its own (R115). -/
inductive Reg where
  | b | c | d | e | h | l | a
  deriving DecidableEq, Repr

/-- R41: the pair field `ss`. -/
inductive RegSS where
  | bc | de | hl | sp
  deriving DecidableEq, Repr

/-- R42: the pair field `qq` of PUSH and POP. -/
inductive RegQQ where
  | bc | de | hl | af
  deriving DecidableEq, Repr

/-- R43: the pair field `pp` of `ADD IX,pp`. -/
inductive RegPP where
  | bc | de | ix | sp
  deriving DecidableEq, Repr

/-- R43: the pair field `rr` of `ADD IY,rr`. -/
inductive RegRR where
  | bc | de | iy | sp
  deriving DecidableEq, Repr

/-- R117: the 3-bit condition field `cc`. -/
inductive Cond where
  | nz | z | nc | c | po | pe | p | m
  deriving DecidableEq, Repr

/-- R117, R351: the 2-bit condition field of `JR cc,e`. -/
inductive CondJR where
  | nz | z | nc | c
  deriving DecidableEq, Repr

/-- One constructor per row of the opcode table. `At` in a name marks an operand in memory (parentheses in the
assembler notation, R25) or a port; `n`, `nn`, `e`, `d` are the immediates of R111 to R114, `b` a bit number and `t`
a restart number (R117). Each constructor's comment gives its assembler form and the rule of its meaning. -/
inductive Instr where
  /-- `LD r,r'`, R171. -/
  | ldRR (rd : Reg) (rs : Reg)
  /-- `LD r,n`, R172. -/
  | ldRN (rd : Reg) (n : Byte)
  /-- `LD r,(HL)`, R173. -/
  | ldRAtHL (rd : Reg)
  /-- `LD (HL),r`, R174. -/
  | ldAtHLR (rs : Reg)
  /-- `LD (HL),n`, R175. -/
  | ldAtHLN (n : Byte)
  /-- `LD A,(BC)`, R180. -/
  | ldAAtBC
  /-- `LD A,(DE)`, R181. -/
  | ldAAtDE
  /-- `LD (BC),A`, R182. -/
  | ldAtBCA
  /-- `LD (DE),A`, R183. -/
  | ldAtDEA
  /-- `LD A,(nn)`, R184. -/
  | ldAAtNN (nn : Word)
  /-- `LD (nn),A`, R185. -/
  | ldAtNNA (nn : Word)
  /-- `LD ss,nn`, R186. -/
  | ldSSNN (ss : RegSS) (nn : Word)
  /-- `LD HL,(nn)`, R188. -/
  | ldHLAtNN (nn : Word)
  /-- `LD (nn),HL`, R189. -/
  | ldAtNNHL (nn : Word)
  /-- `LD SP,HL`, R194. -/
  | ldSPHL
  /-- `PUSH qq`, R206. -/
  | pushQQ (qq : RegQQ)
  /-- `POP qq`, R207. -/
  | popQQ (qq : RegQQ)
  /-- `ADD A,r`, R251. -/
  | addAR (rs : Reg)
  /-- `ADD A,n`, R252. -/
  | addAN (n : Byte)
  /-- `ADD A,(HL)`, R253. -/
  | addAAtHL
  /-- `ADC A,r`, R255. -/
  | adcAR (rs : Reg)
  /-- `ADC A,n`, R256. -/
  | adcAN (n : Byte)
  /-- `ADC A,(HL)`, R257. -/
  | adcAAtHL
  /-- `SUB r`, R259. -/
  | subR (rs : Reg)
  /-- `SUB n`, R260. -/
  | subN (n : Byte)
  /-- `SUB (HL)`, R261. -/
  | subAtHL
  /-- `SBC A,r`, R263. -/
  | sbcAR (rs : Reg)
  /-- `SBC A,n`, R264. -/
  | sbcAN (n : Byte)
  /-- `SBC A,(HL)`, R265. -/
  | sbcAAtHL
  /-- `AND r`, R267. -/
  | andR (rs : Reg)
  /-- `AND n`, R268. -/
  | andN (n : Byte)
  /-- `AND (HL)`, R269. -/
  | andAtHL
  /-- `XOR r`, R271. -/
  | xorR (rs : Reg)
  /-- `XOR n`, R272. -/
  | xorN (n : Byte)
  /-- `XOR (HL)`, R273. -/
  | xorAtHL
  /-- `OR r`, R275. -/
  | orR (rs : Reg)
  /-- `OR n`, R276. -/
  | orN (n : Byte)
  /-- `OR (HL)`, R277. -/
  | orAtHL
  /-- `CP r`, R279. -/
  | cpR (rs : Reg)
  /-- `CP n`, R280. -/
  | cpN (n : Byte)
  /-- `CP (HL)`, R281. -/
  | cpAtHL
  /-- `INC r`, R283. -/
  | incR (rd : Reg)
  /-- `INC (HL)`, R284. -/
  | incAtHL
  /-- `DEC r`, R286. -/
  | decR (rd : Reg)
  /-- `DEC (HL)`, R287. -/
  | decAtHL
  /-- `ADD HL,ss`, R291. -/
  | addHLSS (ss : RegSS)
  /-- `INC ss`, R294. -/
  | incSS (ss : RegSS)
  /-- `DEC ss`, R295. -/
  | decSS (ss : RegSS)
  /-- `RLCA`, R301. -/
  | rlca
  /-- `RRCA`, R303. -/
  | rrca
  /-- `RLA`, R302. -/
  | rla
  /-- `RRA`, R304. -/
  | rra
  /-- `DAA`, R395. -/
  | daa
  /-- `CPL`, R391. -/
  | cpl
  /-- `SCF`, R393. -/
  | scf
  /-- `CCF`, R392. -/
  | ccf
  /-- `HALT`, R396. -/
  | halt
  /-- `NOP`, R397. -/
  | nop
  /-- `EX AF,AF'`, R382. -/
  | exAFAF
  /-- `DJNZ e`, R358. -/
  | djnz (e : Byte)
  /-- `JR e`, R356. -/
  | jr (e : Byte)
  /-- `JR cc,e`, R357. -/
  | jrCC (cc : CondJR) (e : Byte)
  /-- `JP nn`, R352. -/
  | jp (nn : Word)
  /-- `JP cc,nn`, R353. -/
  | jpCC (cc : Cond) (nn : Word)
  /-- `JP (HL)`, R354. -/
  | jpHL
  /-- `CALL nn`, R361. -/
  | call (nn : Word)
  /-- `CALL cc,nn`, R362. -/
  | callCC (cc : Cond) (nn : Word)
  /-- `RET`, R363. -/
  | ret
  /-- `RET cc`, R364. -/
  | retCC (cc : Cond)
  /-- `RST p`, R368. -/
  | rst (t : Fin 8)
  /-- `OUT (n),A`, R413. -/
  | outAtNA (n : Byte)
  /-- `IN A,(n)`, R412. -/
  | inAAtN (n : Byte)
  /-- `EXX`, R383. -/
  | exx
  /-- `EX (SP),HL`, R384. -/
  | exAtSPHL
  /-- `EX DE,HL`, R381. -/
  | exDEHL
  /-- `DI`, R398. -/
  | di
  /-- `EI`, R399. -/
  | ei
  /-- `RLC r`, R308. -/
  | rlcR (rs : Reg)
  /-- `RLC (HL)`, R309. -/
  | rlcAtHL
  /-- `RRC r`, R311. -/
  | rrcR (rs : Reg)
  /-- `RRC (HL)`, R312. -/
  | rrcAtHL
  /-- `RL r`, R314. -/
  | rlR (rs : Reg)
  /-- `RL (HL)`, R315. -/
  | rlAtHL
  /-- `RR r`, R317. -/
  | rrR (rs : Reg)
  /-- `RR (HL)`, R318. -/
  | rrAtHL
  /-- `SLA r`, R320. -/
  | slaR (rs : Reg)
  /-- `SLA (HL)`, R321. -/
  | slaAtHL
  /-- `SRA r`, R323. -/
  | sraR (rs : Reg)
  /-- `SRA (HL)`, R324. -/
  | sraAtHL
  /-- `SRL r`, R326. -/
  | srlR (rs : Reg)
  /-- `SRL (HL)`, R327. -/
  | srlAtHL
  /-- `BIT b,r`, R330. -/
  | bitR (b : Fin 8) (rs : Reg)
  /-- `BIT b,(HL)`, R331. -/
  | bitAtHL (b : Fin 8)
  /-- `RES b,r`, R336. -/
  | resR (b : Fin 8) (rs : Reg)
  /-- `RES b,(HL)`, R337. -/
  | resAtHL (b : Fin 8)
  /-- `SET b,r`, R333. -/
  | setR (b : Fin 8) (rs : Reg)
  /-- `SET b,(HL)`, R334. -/
  | setAtHL (b : Fin 8)
  /-- `IN r,(C)`, R414. -/
  | inRAtC (rd : Reg)
  /-- `OUT (C),r`, R415. -/
  | outAtCR (rs : Reg)
  /-- `SBC HL,ss`, R293. -/
  | sbcHLSS (ss : RegSS)
  /-- `ADC HL,ss`, R292. -/
  | adcHLSS (ss : RegSS)
  /-- `LD (nn),ss`, R191. -/
  | ldAtNNSS (nn : Word) (ss : RegSS)
  /-- `LD ss,(nn)`, R190. -/
  | ldSSAtNN (ss : RegSS) (nn : Word)
  /-- `NEG`, R394. -/
  | neg
  /-- `RETN`, R370. -/
  | retn
  /-- `RETI`, R369. -/
  | reti
  /-- `IM 0`, R400. -/
  | im0
  /-- `IM 1`, R401. -/
  | im1
  /-- `IM 2`, R402. -/
  | im2
  /-- `LD I,A`, R202. -/
  | ldIA
  /-- `LD R,A`, R204. -/
  | ldRA
  /-- `LD A,I`, R203. -/
  | ldAI
  /-- `LD A,R`, R205. -/
  | ldAR
  /-- `RRD`, R305. -/
  | rrd
  /-- `RLD`, R306. -/
  | rld
  /-- `LDI`, R232. -/
  | ldi
  /-- `LDD`, R233. -/
  | ldd
  /-- `LDIR`, R234. -/
  | ldir
  /-- `LDDR`, R235. -/
  | lddr
  /-- `CPI`, R236. -/
  | cpi
  /-- `CPD`, R237. -/
  | cpd
  /-- `CPIR`, R238. -/
  | cpir
  /-- `CPDR`, R239. -/
  | cpdr
  /-- `INI`, R416. -/
  | ini
  /-- `IND`, R417. -/
  | ind
  /-- `INIR`, R418. -/
  | inir
  /-- `INDR`, R419. -/
  | indr
  /-- `OUTI`, R420. -/
  | outi
  /-- `OUTD`, R421. -/
  | outd
  /-- `OTIR`, R422. -/
  | otir
  /-- `OTDR`, R423. -/
  | otdr
  /-- `ADD IX,pp`, R296. -/
  | addIXPP (pp : RegPP)
  /-- `LD IX,nn`, R187. -/
  | ldIXNN (nn : Word)
  /-- `LD (nn),IX`, R193. -/
  | ldAtNNIX (nn : Word)
  /-- `LD IX,(nn)`, R192. -/
  | ldIXAtNN (nn : Word)
  /-- `INC IX`, R297. -/
  | incIX
  /-- `DEC IX`, R298. -/
  | decIX
  /-- `INC (IX+d)`, R285. -/
  | incAtIX (d : Byte)
  /-- `DEC (IX+d)`, R288. -/
  | decAtIX (d : Byte)
  /-- `LD (IX+d),n`, R179. -/
  | ldAtIXN (d : Byte) (n : Byte)
  /-- `LD r,(IX+d)`, R177. -/
  | ldRAtIX (rd : Reg) (d : Byte)
  /-- `LD (IX+d),r`, R178. -/
  | ldAtIXR (d : Byte) (rs : Reg)
  /-- `ADD A,(IX+d)`, R254. -/
  | addAAtIX (d : Byte)
  /-- `ADC A,(IX+d)`, R258. -/
  | adcAAtIX (d : Byte)
  /-- `SUB (IX+d)`, R262. -/
  | subAtIX (d : Byte)
  /-- `SBC A,(IX+d)`, R266. -/
  | sbcAAtIX (d : Byte)
  /-- `AND (IX+d)`, R270. -/
  | andAtIX (d : Byte)
  /-- `XOR (IX+d)`, R274. -/
  | xorAtIX (d : Byte)
  /-- `OR (IX+d)`, R278. -/
  | orAtIX (d : Byte)
  /-- `CP (IX+d)`, R282. -/
  | cpAtIX (d : Byte)
  /-- `POP IX`, R209. -/
  | popIX
  /-- `EX (SP),IX`, R385. -/
  | exAtSPIX
  /-- `PUSH IX`, R208. -/
  | pushIX
  /-- `JP (IX)`, R355. -/
  | jpIX
  /-- `LD SP,IX`, R195. -/
  | ldSPIX
  /-- `RLC (IX+d)`, R310. -/
  | rlcAtIX (d : Byte)
  /-- `RRC (IX+d)`, R313. -/
  | rrcAtIX (d : Byte)
  /-- `RL (IX+d)`, R316. -/
  | rlAtIX (d : Byte)
  /-- `RR (IX+d)`, R319. -/
  | rrAtIX (d : Byte)
  /-- `SLA (IX+d)`, R322. -/
  | slaAtIX (d : Byte)
  /-- `SRA (IX+d)`, R325. -/
  | sraAtIX (d : Byte)
  /-- `SRL (IX+d)`, R328. -/
  | srlAtIX (d : Byte)
  /-- `BIT b,(IX+d)`, R332. -/
  | bitAtIX (b : Fin 8) (d : Byte)
  /-- `RES b,(IX+d)`, R338. -/
  | resAtIX (b : Fin 8) (d : Byte)
  /-- `SET b,(IX+d)`, R335. -/
  | setAtIX (b : Fin 8) (d : Byte)
  /-- `ADD IY,rr`, R296. -/
  | addIYRR (rr : RegRR)
  /-- `LD IY,nn`, R187. -/
  | ldIYNN (nn : Word)
  /-- `LD (nn),IY`, R193. -/
  | ldAtNNIY (nn : Word)
  /-- `LD IY,(nn)`, R192. -/
  | ldIYAtNN (nn : Word)
  /-- `INC IY`, R297. -/
  | incIY
  /-- `DEC IY`, R298. -/
  | decIY
  /-- `INC (IY+d)`, R285. -/
  | incAtIY (d : Byte)
  /-- `DEC (IY+d)`, R288. -/
  | decAtIY (d : Byte)
  /-- `LD (IY+d),n`, R179. -/
  | ldAtIYN (d : Byte) (n : Byte)
  /-- `LD r,(IY+d)`, R177. -/
  | ldRAtIY (rd : Reg) (d : Byte)
  /-- `LD (IY+d),r`, R178. -/
  | ldAtIYR (d : Byte) (rs : Reg)
  /-- `ADD A,(IY+d)`, R254. -/
  | addAAtIY (d : Byte)
  /-- `ADC A,(IY+d)`, R258. -/
  | adcAAtIY (d : Byte)
  /-- `SUB (IY+d)`, R262. -/
  | subAtIY (d : Byte)
  /-- `SBC A,(IY+d)`, R266. -/
  | sbcAAtIY (d : Byte)
  /-- `AND (IY+d)`, R270. -/
  | andAtIY (d : Byte)
  /-- `XOR (IY+d)`, R274. -/
  | xorAtIY (d : Byte)
  /-- `OR (IY+d)`, R278. -/
  | orAtIY (d : Byte)
  /-- `CP (IY+d)`, R282. -/
  | cpAtIY (d : Byte)
  /-- `POP IY`, R209. -/
  | popIY
  /-- `EX (SP),IY`, R385. -/
  | exAtSPIY
  /-- `PUSH IY`, R208. -/
  | pushIY
  /-- `JP (IY)`, R355. -/
  | jpIY
  /-- `LD SP,IY`, R195. -/
  | ldSPIY
  /-- `RLC (IY+d)`, R310. -/
  | rlcAtIY (d : Byte)
  /-- `RRC (IY+d)`, R313. -/
  | rrcAtIY (d : Byte)
  /-- `RL (IY+d)`, R316. -/
  | rlAtIY (d : Byte)
  /-- `RR (IY+d)`, R319. -/
  | rrAtIY (d : Byte)
  /-- `SLA (IY+d)`, R322. -/
  | slaAtIY (d : Byte)
  /-- `SRA (IY+d)`, R325. -/
  | sraAtIY (d : Byte)
  /-- `SRL (IY+d)`, R328. -/
  | srlAtIY (d : Byte)
  /-- `BIT b,(IY+d)`, R332. -/
  | bitAtIY (b : Fin 8) (d : Byte)
  /-- `RES b,(IY+d)`, R338. -/
  | resAtIY (b : Fin 8) (d : Byte)
  /-- `SET b,(IY+d)`, R335. -/
  | setAtIY (b : Fin 8) (d : Byte)
  deriving DecidableEq, Repr

end Sys2Proof
end

