-- ==== Sys2Proof/Config.lean ====
section
/-!
DEFINITION. Config: the parameters of CORE (00_scope.md R7) as plain data, and the free values and oracles of the spec
(R16, 49_io.md R410, 70_reset_and_hazards.md R475) as constants with no body.
-/
namespace Sys2Proof

/-- R3: the generation selector `GEN`. -/
inductive Gen where
  | i80 | z80
  deriving DecidableEq, Repr

/-- R6, R7: whether tier C instructions decode (`TIER_C`; the spec's value admit is `admitted`). -/
inductive TierC where
  | admitted | fault
  deriving DecidableEq, Repr

/-- R7, R36: whether `LD A,R` reads the per-byte count or an unspecified byte (`R_READ`). -/
inductive RRead where
  | perByte | any
  deriving DecidableEq, Repr

/-- R7, R76: whether a fetch or a word access may cross from 0xFFFF to 0x0000 (`WRAP_FFFF`). -/
inductive WrapFfff where
  | wrap | fault
  deriving DecidableEq, Repr

/-- R7, R236: what a block compare does with the Carry flag (`CPBLK_C`). -/
inductive CpblkC where
  | compare | unchanged
  deriving DecidableEq, Repr

/-- R7: the parameters that change what a step does. They are configuration, constant during a run (R3, R50). -/
structure Params where
  gen : Gen
  tierC : TierC
  rRead : RRead
  wrapFfff : WrapFfff
  cpblkC : CpblkC
  deriving DecidableEq, Repr

/-- The spec's defaults (R7); `GEN` has none (R51), and Z80 is the model's (DESIGN CHOICE, log 1; unsafe where a claim
rests on it, and no statement does). -/
def Params.default : Params :=
  { gen := .z80, tierC := .admitted, rRead := .perByte, wrapFfff := .wrap, cpblkC := .compare }

/-- R410, R411: one event of the I/O trace, `in(port, value)` or `out(port, value)`. -/
inductive IoEvent where
  | input (port value : Byte)
  | output (port value : Byte)
  deriving DecidableEq, Repr

/-- R16: the `k`-th `UNSPEC_1()`, a value the spec promises nothing about (free value, log 4; safe). -/
opaque Config.unspecBit : Nat → Bool

/-- R16: the `k`-th `UNSPEC_8()` (free value, log 4; safe). -/
opaque Config.unspecByte : Nat → Byte

/-- R433: the `k`-th unspecified 16-bit value, for PC after a DecodeError (free value, log 4; safe). -/
opaque Config.unspecWord : Nat → Word

/-- R410: `IoRead`, the byte the environment answers on a port after the I/O events so far (oracle, log 5; safe). -/
opaque Config.ioRead : Byte → List IoEvent → Byte

/-- R475: the open table `STATES`, one less than the clock states of an instruction; a function of the instruction, of
whether its branch was taken, and of how many iterations ran (free value, log 17; safe). -/
opaque Config.statesLessOne : Instr → Bool → Nat → Nat

end Sys2Proof
end

