-- ==== Sys2Proof/WellFormed.lean ====
section
/-!
DEFINITION. WellFormed: which instructions exist under given parameters (00_scope.md R6, 30_encoding.md R118, R119).
The operand types leave no ill-formed operand; what can be wrong with an instruction is that the generation does not
have it or that tier C is not admitted.
-/
namespace Sys2Proof

/-- The `generation` member of an opcode-table row: `both`, or `Z80` only (R118). -/
inductive Generation where
  | both | z80Only
  deriving DecidableEq, Repr

/-- The provenance tier of an opcode-table row (R6). -/
inductive Tier where
  | a | b | c
  deriving DecidableEq, Repr

/-- The `generation` and `tier` members of each row of the opcode table. -/
def Instr.availability : Instr → Generation × Tier
  | .ldRR _ _ => (.both, .a)
  | .ldRN _ _ => (.both, .a)
  | .ldRAtHL _ => (.both, .a)
  | .ldAtHLR _ => (.both, .a)
  | .ldAtHLN _ => (.both, .a)
  | .ldAAtBC => (.both, .a)
  | .ldAAtDE => (.both, .a)
  | .ldAtBCA => (.both, .a)
  | .ldAtDEA => (.both, .a)
  | .ldAAtNN _ => (.both, .a)
  | .ldAtNNA _ => (.both, .a)
  | .ldSSNN _ _ => (.both, .a)
  | .ldHLAtNN _ => (.both, .a)
  | .ldAtNNHL _ => (.both, .a)
  | .ldSPHL => (.both, .a)
  | .pushQQ _ => (.both, .a)
  | .popQQ _ => (.both, .a)
  | .addAR _ => (.both, .a)
  | .addAN _ => (.both, .a)
  | .addAAtHL => (.both, .a)
  | .adcAR _ => (.both, .a)
  | .adcAN _ => (.both, .a)
  | .adcAAtHL => (.both, .a)
  | .subR _ => (.both, .a)
  | .subN _ => (.both, .a)
  | .subAtHL => (.both, .a)
  | .sbcAR _ => (.both, .a)
  | .sbcAN _ => (.both, .a)
  | .sbcAAtHL => (.both, .a)
  | .andR _ => (.both, .a)
  | .andN _ => (.both, .a)
  | .andAtHL => (.both, .a)
  | .xorR _ => (.both, .a)
  | .xorN _ => (.both, .a)
  | .xorAtHL => (.both, .a)
  | .orR _ => (.both, .a)
  | .orN _ => (.both, .a)
  | .orAtHL => (.both, .a)
  | .cpR _ => (.both, .a)
  | .cpN _ => (.both, .a)
  | .cpAtHL => (.both, .a)
  | .incR _ => (.both, .a)
  | .incAtHL => (.both, .a)
  | .decR _ => (.both, .a)
  | .decAtHL => (.both, .a)
  | .addHLSS _ => (.both, .a)
  | .incSS _ => (.both, .a)
  | .decSS _ => (.both, .a)
  | .rlca => (.both, .a)
  | .rrca => (.both, .a)
  | .rla => (.both, .a)
  | .rra => (.both, .a)
  | .daa => (.both, .a)
  | .cpl => (.both, .a)
  | .scf => (.both, .a)
  | .ccf => (.both, .a)
  | .halt => (.both, .a)
  | .nop => (.both, .c)
  | .exAFAF => (.z80Only, .a)
  | .djnz _ => (.z80Only, .a)
  | .jr _ => (.z80Only, .a)
  | .jrCC _ _ => (.z80Only, .a)
  | .jp _ => (.both, .a)
  | .jpCC _ _ => (.both, .a)
  | .jpHL => (.both, .a)
  | .call _ => (.both, .a)
  | .callCC _ _ => (.both, .a)
  | .ret => (.both, .a)
  | .retCC _ => (.both, .a)
  | .rst _ => (.both, .c)
  | .outAtNA _ => (.both, .a)
  | .inAAtN _ => (.both, .a)
  | .exx => (.z80Only, .a)
  | .exAtSPHL => (.both, .a)
  | .exDEHL => (.both, .a)
  | .di => (.both, .c)
  | .ei => (.both, .c)
  | .rlcR _ => (.z80Only, .b)
  | .rlcAtHL => (.z80Only, .b)
  | .rrcR _ => (.z80Only, .b)
  | .rrcAtHL => (.z80Only, .b)
  | .rlR _ => (.z80Only, .b)
  | .rlAtHL => (.z80Only, .b)
  | .rrR _ => (.z80Only, .b)
  | .rrAtHL => (.z80Only, .b)
  | .slaR _ => (.z80Only, .b)
  | .slaAtHL => (.z80Only, .b)
  | .sraR _ => (.z80Only, .b)
  | .sraAtHL => (.z80Only, .b)
  | .srlR _ => (.z80Only, .b)
  | .srlAtHL => (.z80Only, .b)
  | .bitR _ _ => (.z80Only, .b)
  | .bitAtHL _ => (.z80Only, .b)
  | .resR _ _ => (.z80Only, .b)
  | .resAtHL _ => (.z80Only, .b)
  | .setR _ _ => (.z80Only, .b)
  | .setAtHL _ => (.z80Only, .b)
  | .inRAtC _ => (.z80Only, .c)
  | .outAtCR _ => (.z80Only, .c)
  | .sbcHLSS _ => (.z80Only, .a)
  | .adcHLSS _ => (.z80Only, .a)
  | .ldAtNNSS _ _ => (.z80Only, .a)
  | .ldSSAtNN _ _ => (.z80Only, .a)
  | .neg => (.z80Only, .a)
  | .retn => (.z80Only, .c)
  | .reti => (.z80Only, .c)
  | .im0 => (.z80Only, .c)
  | .im1 => (.z80Only, .c)
  | .im2 => (.z80Only, .c)
  | .ldIA => (.z80Only, .a)
  | .ldRA => (.z80Only, .a)
  | .ldAI => (.z80Only, .a)
  | .ldAR => (.z80Only, .a)
  | .rrd => (.z80Only, .a)
  | .rld => (.z80Only, .c)
  | .ldi => (.z80Only, .a)
  | .ldd => (.z80Only, .a)
  | .ldir => (.z80Only, .a)
  | .lddr => (.z80Only, .a)
  | .cpi => (.z80Only, .a)
  | .cpd => (.z80Only, .a)
  | .cpir => (.z80Only, .a)
  | .cpdr => (.z80Only, .a)
  | .ini => (.z80Only, .c)
  | .ind => (.z80Only, .c)
  | .inir => (.z80Only, .c)
  | .indr => (.z80Only, .c)
  | .outi => (.z80Only, .c)
  | .outd => (.z80Only, .c)
  | .otir => (.z80Only, .c)
  | .otdr => (.z80Only, .c)
  | .addIXPP _ => (.z80Only, .b)
  | .ldIXNN _ => (.z80Only, .b)
  | .ldAtNNIX _ => (.z80Only, .b)
  | .ldIXAtNN _ => (.z80Only, .b)
  | .incIX => (.z80Only, .b)
  | .decIX => (.z80Only, .b)
  | .incAtIX _ => (.z80Only, .b)
  | .decAtIX _ => (.z80Only, .b)
  | .ldAtIXN _ _ => (.z80Only, .b)
  | .ldRAtIX _ _ => (.z80Only, .b)
  | .ldAtIXR _ _ => (.z80Only, .b)
  | .addAAtIX _ => (.z80Only, .b)
  | .adcAAtIX _ => (.z80Only, .b)
  | .subAtIX _ => (.z80Only, .b)
  | .sbcAAtIX _ => (.z80Only, .b)
  | .andAtIX _ => (.z80Only, .b)
  | .xorAtIX _ => (.z80Only, .b)
  | .orAtIX _ => (.z80Only, .b)
  | .cpAtIX _ => (.z80Only, .b)
  | .popIX => (.z80Only, .b)
  | .exAtSPIX => (.z80Only, .b)
  | .pushIX => (.z80Only, .b)
  | .jpIX => (.z80Only, .b)
  | .ldSPIX => (.z80Only, .b)
  | .rlcAtIX _ => (.z80Only, .b)
  | .rrcAtIX _ => (.z80Only, .b)
  | .rlAtIX _ => (.z80Only, .b)
  | .rrAtIX _ => (.z80Only, .b)
  | .slaAtIX _ => (.z80Only, .b)
  | .sraAtIX _ => (.z80Only, .b)
  | .srlAtIX _ => (.z80Only, .b)
  | .bitAtIX _ _ => (.z80Only, .b)
  | .resAtIX _ _ => (.z80Only, .b)
  | .setAtIX _ _ => (.z80Only, .b)
  | .addIYRR _ => (.z80Only, .b)
  | .ldIYNN _ => (.z80Only, .b)
  | .ldAtNNIY _ => (.z80Only, .b)
  | .ldIYAtNN _ => (.z80Only, .b)
  | .incIY => (.z80Only, .b)
  | .decIY => (.z80Only, .b)
  | .incAtIY _ => (.z80Only, .b)
  | .decAtIY _ => (.z80Only, .b)
  | .ldAtIYN _ _ => (.z80Only, .b)
  | .ldRAtIY _ _ => (.z80Only, .b)
  | .ldAtIYR _ _ => (.z80Only, .b)
  | .addAAtIY _ => (.z80Only, .b)
  | .adcAAtIY _ => (.z80Only, .b)
  | .subAtIY _ => (.z80Only, .b)
  | .sbcAAtIY _ => (.z80Only, .b)
  | .andAtIY _ => (.z80Only, .b)
  | .xorAtIY _ => (.z80Only, .b)
  | .orAtIY _ => (.z80Only, .b)
  | .cpAtIY _ => (.z80Only, .b)
  | .popIY => (.z80Only, .b)
  | .exAtSPIY => (.z80Only, .b)
  | .pushIY => (.z80Only, .b)
  | .jpIY => (.z80Only, .b)
  | .ldSPIY => (.z80Only, .b)
  | .rlcAtIY _ => (.z80Only, .b)
  | .rrcAtIY _ => (.z80Only, .b)
  | .rlAtIY _ => (.z80Only, .b)
  | .rrAtIY _ => (.z80Only, .b)
  | .slaAtIY _ => (.z80Only, .b)
  | .sraAtIY _ => (.z80Only, .b)
  | .srlAtIY _ => (.z80Only, .b)
  | .bitAtIY _ _ => (.z80Only, .b)
  | .resAtIY _ _ => (.z80Only, .b)
  | .setAtIY _ _ => (.z80Only, .b)

/-- R118: under `GEN = I80` only the rows of both generations exist. -/
def Instr.inGeneration (g : Gen) (i : Instr) : Bool :=
  match g, i.availability.1 with
  | .z80, _ => true
  | .i80, .both => true
  | .i80, .z80Only => false

/-- R6, R119: with `TIER_C = fault` the tier C rows do not exist. -/
def Instr.inTier (t : TierC) (i : Instr) : Bool :=
  match t, i.availability.2 with
  | .admitted, _ => true
  | .fault, .a => true
  | .fault, .b => true
  | .fault, .c => false

/-- R118, R119: the instruction is available under these parameters. -/
def Instr.wellFormed (p : Params) (i : Instr) : Bool :=
  i.inGeneration p.gen && i.inTier p.tierC

end Sys2Proof
end

