-- ==== Sys2Proof/Decode.lean ====
section
/-!
DEFINITION. Decode: the decoder of 30_encoding.md (R100 to R132), total on any bytes and refusing by name, and after it
the encoder written from the same tables. A decoder reads strictly left to right and its length depends on the table
and the opcode byte alone (R130); the model hands it the four bytes at PC, of which it uses the ones its result counts
(log 11).
-/
namespace Sys2Proof

/-! ## Fields of an opcode byte (R102) -/

/-- R102: `x = op[7:6]`. -/
def opX (op : Byte) : Nat := op.toNat / 64

/-- R102: `y = op[5:3]`. -/
def opY (op : Byte) : Nat := op.toNat / 8 % 8

/-- R102: `z = op[2:0]`. -/
def opZ (op : Byte) : Nat := op.toNat % 8

/-- R102: `p = op[5:4]`. -/
def opP (op : Byte) : Nat := op.toNat / 16 % 4

/-- R102: `q = op[3]`. -/
def opQ (op : Byte) : Nat := op.toNat / 8 % 2

/-- An opcode byte from its fields `x`, `y`, `z` (R102). -/
def opc (x y z : Nat) : Byte := BitVec.ofNat 8 (x * 64 + y * 8 + z)

/-- An opcode byte from its fields `x`, `p`, `q`, `z` (R102: `y` is `p` above `q`). -/
def opcPQ (x p q z : Nat) : Byte := opc x (p * 2 + q) z

/-! ## Operand fields (R40 to R43, R117) -/

/-- R40: the code of a register in a 3-bit field. -/
def Reg.code : Reg → Nat
  | .b => 0 | .c => 1 | .d => 2 | .e => 3 | .h => 4 | .l => 5 | .a => 7

/-- R40: the register of a 3-bit field; code 6 is not a register. -/
def Reg.ofCode : Nat → Option Reg
  | 0 => some .b | 1 => some .c | 2 => some .d | 3 => some .e | 4 => some .h | 5 => some .l | 7 => some .a
  | _ => none

/-- R41. -/
def RegSS.code : RegSS → Nat
  | .bc => 0 | .de => 1 | .hl => 2 | .sp => 3

/-- R41. -/
def RegSS.ofCode : Nat → RegSS
  | 0 => .bc | 1 => .de | 2 => .hl | _ => .sp

/-- R42. -/
def RegQQ.code : RegQQ → Nat
  | .bc => 0 | .de => 1 | .hl => 2 | .af => 3

/-- R42. -/
def RegQQ.ofCode : Nat → RegQQ
  | 0 => .bc | 1 => .de | 2 => .hl | _ => .af

/-- R43. -/
def RegPP.code : RegPP → Nat
  | .bc => 0 | .de => 1 | .ix => 2 | .sp => 3

/-- R43. -/
def RegPP.ofCode : Nat → RegPP
  | 0 => .bc | 1 => .de | 2 => .ix | _ => .sp

/-- R43. -/
def RegRR.code : RegRR → Nat
  | .bc => 0 | .de => 1 | .iy => 2 | .sp => 3

/-- R43. -/
def RegRR.ofCode : Nat → RegRR
  | 0 => .bc | 1 => .de | 2 => .iy | _ => .sp

/-- R117. -/
def Cond.code : Cond → Nat
  | .nz => 0 | .z => 1 | .nc => 2 | .c => 3 | .po => 4 | .pe => 5 | .p => 6 | .m => 7

/-- R117. -/
def Cond.ofCode : Nat → Cond
  | 0 => .nz | 1 => .z | 2 => .nc | 3 => .c | 4 => .po | 5 => .pe | 6 => .p | _ => .m

/-- R117, R351. -/
def CondJR.code : CondJR → Nat
  | .nz => 0 | .z => 1 | .nc => 2 | .c => 3

/-- R117, R351. -/
def CondJR.ofCode : Nat → CondJR
  | 0 => .nz | 1 => .z | 2 => .nc | _ => .c

/-- R117: a bit number or a restart number from its 3-bit field. -/
def fieldFin (y : Nat) : Fin 8 := Fin.ofNat 8 y

/-! ## The result of decoding -/

/-- Why bytes do not decode (R431): which table has no entry, or which parameter leaves the entry out. -/
inductive DecodeReason where
  /-- R118: a first byte that only `GEN = Z80` has. -/
  | z80Only
  /-- R119: a tier C encoding under `TIER_C = fault`. -/
  | tierC
  /-- R119 (a): no entry in the CB table. -/
  | noCB
  /-- R119 (b): no entry in the ED table. -/
  | noED
  /-- R119 (c): no entry in the DD table. -/
  | noDD
  /-- R119 (c): no entry in the FD table. -/
  | noFD
  /-- R119 (d): no entry in the DD CB table. -/
  | noDDCB
  /-- R119 (d): no entry in the FD CB table. -/
  | noFDCB
  deriving DecidableEq, Repr

/-- An instruction and its length, or a refusal by name and the number of bytes fetched before decoding stopped. -/
inductive Decoded where
  | ok (i : Instr) (len : Nat)
  | error (why : DecodeReason) (len : Nat)
  deriving DecidableEq, Repr

/-- How many bytes were fetched. -/
def Decoded.length : Decoded → Nat
  | .ok _ len => len
  | .error _ len => len

/-! ## The seven tables -/

/-- R121: the CB table. -/
def decodeCB (b1 : Byte) : Decoded :=
  match opX b1, Reg.ofCode (opZ b1) with
  | 0, some r =>
    match opY b1 with
    | 0 => .ok (.rlcR r) 2
    | 1 => .ok (.rrcR r) 2
    | 2 => .ok (.rlR r) 2
    | 3 => .ok (.rrR r) 2
    | 4 => .ok (.slaR r) 2
    | 5 => .ok (.sraR r) 2
    | 6 => .error .noCB 2
    | _ => .ok (.srlR r) 2
  | 0, none =>
    match opY b1 with
    | 0 => .ok .rlcAtHL 2
    | 1 => .ok .rrcAtHL 2
    | 2 => .ok .rlAtHL 2
    | 3 => .ok .rrAtHL 2
    | 4 => .ok .slaAtHL 2
    | 5 => .ok .sraAtHL 2
    | 6 => .error .noCB 2
    | _ => .ok .srlAtHL 2
  | 1, some r => .ok (.bitR (fieldFin (opY b1)) r) 2
  | 1, none => .ok (.bitAtHL (fieldFin (opY b1))) 2
  | 2, some r => .ok (.resR (fieldFin (opY b1)) r) 2
  | 2, none => .ok (.resAtHL (fieldFin (opY b1))) 2
  | _, some r => .ok (.setR (fieldFin (opY b1)) r) 2
  | _, none => .ok (.setAtHL (fieldFin (opY b1))) 2

/-- R122: the ED table. -/
def decodeED (b1 b2 b3 : Byte) : Decoded :=
  match opX b1, opZ b1 with
  | 1, 0 =>
    match Reg.ofCode (opY b1) with
    | some r => .ok (.inRAtC r) 2
    | none => .error .noED 2
  | 1, 1 =>
    match Reg.ofCode (opY b1) with
    | some r => .ok (.outAtCR r) 2
    | none => .error .noED 2
  | 1, 2 =>
    match opQ b1 with
    | 0 => .ok (.sbcHLSS (RegSS.ofCode (opP b1))) 2
    | _ => .ok (.adcHLSS (RegSS.ofCode (opP b1))) 2
  | 1, 3 =>
    match opQ b1 with
    | 0 => .ok (.ldAtNNSS (joinBytes b3 b2) (RegSS.ofCode (opP b1))) 4
    | _ => .ok (.ldSSAtNN (RegSS.ofCode (opP b1)) (joinBytes b3 b2)) 4
  | 1, 4 =>
    match opY b1 with
    | 0 => .ok .neg 2
    | _ => .error .noED 2
  | 1, 5 =>
    match opY b1 with
    | 0 => .ok .retn 2
    | 1 => .ok .reti 2
    | _ => .error .noED 2
  | 1, 6 =>
    match opY b1 with
    | 0 => .ok .im0 2
    | 2 => .ok .im1 2
    | 3 => .ok .im2 2
    | _ => .error .noED 2
  | 1, _ =>
    match opY b1 with
    | 0 => .ok .ldIA 2
    | 1 => .ok .ldRA 2
    | 2 => .ok .ldAI 2
    | 3 => .ok .ldAR 2
    | 4 => .ok .rrd 2
    | 5 => .ok .rld 2
    | _ => .error .noED 2
  | 2, 0 =>
    match opY b1 with
    | 4 => .ok .ldi 2
    | 5 => .ok .ldd 2
    | 6 => .ok .ldir 2
    | 7 => .ok .lddr 2
    | _ => .error .noED 2
  | 2, 1 =>
    match opY b1 with
    | 4 => .ok .cpi 2
    | 5 => .ok .cpd 2
    | 6 => .ok .cpir 2
    | 7 => .ok .cpdr 2
    | _ => .error .noED 2
  | 2, 2 =>
    match opY b1 with
    | 4 => .ok .ini 2
    | 5 => .ok .ind 2
    | 6 => .ok .inir 2
    | 7 => .ok .indr 2
    | _ => .error .noED 2
  | 2, 3 =>
    match opY b1 with
    | 4 => .ok .outi 2
    | 5 => .ok .outd 2
    | 6 => .ok .otir 2
    | 7 => .ok .otdr 2
    | _ => .error .noED 2
  | _, _ => .error .noED 2

/-- R124: the DD CB table; the displacement is the third byte and the opcode the fourth. -/
def decodeDDCB (d op : Byte) : Decoded :=
  match opX op, opZ op with
  | 0, 6 =>
    match opY op with
    | 0 => .ok (.rlcAtIX d) 4
    | 1 => .ok (.rrcAtIX d) 4
    | 2 => .ok (.rlAtIX d) 4
    | 3 => .ok (.rrAtIX d) 4
    | 4 => .ok (.slaAtIX d) 4
    | 5 => .ok (.sraAtIX d) 4
    | 6 => .error .noDDCB 4
    | _ => .ok (.srlAtIX d) 4
  | 1, 6 => .ok (.bitAtIX (fieldFin (opY op)) d) 4
  | 2, 6 => .ok (.resAtIX (fieldFin (opY op)) d) 4
  | 3, 6 => .ok (.setAtIX (fieldFin (opY op)) d) 4
  | _, _ => .error .noDDCB 4

/-- R123: the DD table, without its second prefix CB. -/
def decodeDD (b1 b2 b3 : Byte) : Decoded :=
  match opX b1, opZ b1 with
  | 0, 1 =>
    match opQ b1, opP b1 with
    | 1, p => .ok (.addIXPP (RegPP.ofCode p)) 2
    | 0, 2 => .ok (.ldIXNN (joinBytes b3 b2)) 4
    | _, _ => .error .noDD 2
  | 0, 2 =>
    match opY b1 with
    | 4 => .ok (.ldAtNNIX (joinBytes b3 b2)) 4
    | 5 => .ok (.ldIXAtNN (joinBytes b3 b2)) 4
    | _ => .error .noDD 2
  | 0, 3 =>
    match opY b1 with
    | 4 => .ok .incIX 2
    | 5 => .ok .decIX 2
    | _ => .error .noDD 2
  | 0, 4 =>
    match opY b1 with
    | 6 => .ok (.incAtIX b2) 3
    | _ => .error .noDD 2
  | 0, 5 =>
    match opY b1 with
    | 6 => .ok (.decAtIX b2) 3
    | _ => .error .noDD 2
  | 0, 6 =>
    match opY b1 with
    | 6 => .ok (.ldAtIXN b2 b3) 4
    | _ => .error .noDD 2
  | 1, z =>
    match Reg.ofCode (opY b1), Reg.ofCode z with
    | some rd, none => .ok (.ldRAtIX rd b2) 3
    | none, some rs => .ok (.ldAtIXR b2 rs) 3
    | _, _ => .error .noDD 2
  | 2, 6 =>
    match opY b1 with
    | 0 => .ok (.addAAtIX b2) 3
    | 1 => .ok (.adcAAtIX b2) 3
    | 2 => .ok (.subAtIX b2) 3
    | 3 => .ok (.sbcAAtIX b2) 3
    | 4 => .ok (.andAtIX b2) 3
    | 5 => .ok (.xorAtIX b2) 3
    | 6 => .ok (.orAtIX b2) 3
    | _ => .ok (.cpAtIX b2) 3
  | 3, 1 =>
    match opY b1 with
    | 4 => .ok .popIX 2
    | 5 => .ok .jpIX 2
    | 7 => .ok .ldSPIX 2
    | _ => .error .noDD 2
  | 3, 3 =>
    match opY b1 with
    | 4 => .ok .exAtSPIX 2
    | _ => .error .noDD 2
  | 3, 5 =>
    match opY b1 with
    | 4 => .ok .pushIX 2
    | _ => .error .noDD 2
  | _, _ => .error .noDD 2

/-- R124: the FD CB table; the displacement is the third byte and the opcode the fourth. -/
def decodeFDCB (d op : Byte) : Decoded :=
  match opX op, opZ op with
  | 0, 6 =>
    match opY op with
    | 0 => .ok (.rlcAtIY d) 4
    | 1 => .ok (.rrcAtIY d) 4
    | 2 => .ok (.rlAtIY d) 4
    | 3 => .ok (.rrAtIY d) 4
    | 4 => .ok (.slaAtIY d) 4
    | 5 => .ok (.sraAtIY d) 4
    | 6 => .error .noFDCB 4
    | _ => .ok (.srlAtIY d) 4
  | 1, 6 => .ok (.bitAtIY (fieldFin (opY op)) d) 4
  | 2, 6 => .ok (.resAtIY (fieldFin (opY op)) d) 4
  | 3, 6 => .ok (.setAtIY (fieldFin (opY op)) d) 4
  | _, _ => .error .noFDCB 4

/-- R123: the FD table, without its second prefix CB. -/
def decodeFD (b1 b2 b3 : Byte) : Decoded :=
  match opX b1, opZ b1 with
  | 0, 1 =>
    match opQ b1, opP b1 with
    | 1, p => .ok (.addIYRR (RegRR.ofCode p)) 2
    | 0, 2 => .ok (.ldIYNN (joinBytes b3 b2)) 4
    | _, _ => .error .noFD 2
  | 0, 2 =>
    match opY b1 with
    | 4 => .ok (.ldAtNNIY (joinBytes b3 b2)) 4
    | 5 => .ok (.ldIYAtNN (joinBytes b3 b2)) 4
    | _ => .error .noFD 2
  | 0, 3 =>
    match opY b1 with
    | 4 => .ok .incIY 2
    | 5 => .ok .decIY 2
    | _ => .error .noFD 2
  | 0, 4 =>
    match opY b1 with
    | 6 => .ok (.incAtIY b2) 3
    | _ => .error .noFD 2
  | 0, 5 =>
    match opY b1 with
    | 6 => .ok (.decAtIY b2) 3
    | _ => .error .noFD 2
  | 0, 6 =>
    match opY b1 with
    | 6 => .ok (.ldAtIYN b2 b3) 4
    | _ => .error .noFD 2
  | 1, z =>
    match Reg.ofCode (opY b1), Reg.ofCode z with
    | some rd, none => .ok (.ldRAtIY rd b2) 3
    | none, some rs => .ok (.ldAtIYR b2 rs) 3
    | _, _ => .error .noFD 2
  | 2, 6 =>
    match opY b1 with
    | 0 => .ok (.addAAtIY b2) 3
    | 1 => .ok (.adcAAtIY b2) 3
    | 2 => .ok (.subAtIY b2) 3
    | 3 => .ok (.sbcAAtIY b2) 3
    | 4 => .ok (.andAtIY b2) 3
    | 5 => .ok (.xorAtIY b2) 3
    | 6 => .ok (.orAtIY b2) 3
    | _ => .ok (.cpAtIY b2) 3
  | 3, 1 =>
    match opY b1 with
    | 4 => .ok .popIY 2
    | 5 => .ok .jpIY 2
    | 7 => .ok .ldSPIY 2
    | _ => .error .noFD 2
  | 3, 3 =>
    match opY b1 with
    | 4 => .ok .exAtSPIY 2
    | _ => .error .noFD 2
  | 3, 5 =>
    match opY b1 with
    | 4 => .ok .pushIY 2
    | _ => .error .noFD 2
  | _, _ => .error .noFD 2

/-- R120: the quarter `x = 0` of the base table. -/
def decodeX0 (b0 b1 b2 : Byte) : Decoded :=
  match opZ b0 with
  | 0 =>
    match opY b0 with
    | 0 => .ok .nop 1
    | 1 => .ok .exAFAF 1
    | 2 => .ok (.djnz b1) 2
    | 3 => .ok (.jr b1) 2
    | y => .ok (.jrCC (CondJR.ofCode (y % 4)) b1) 2
  | 1 =>
    match opQ b0 with
    | 0 => .ok (.ldSSNN (RegSS.ofCode (opP b0)) (joinBytes b2 b1)) 3
    | _ => .ok (.addHLSS (RegSS.ofCode (opP b0))) 1
  | 2 =>
    match opY b0 with
    | 0 => .ok .ldAtBCA 1
    | 1 => .ok .ldAAtBC 1
    | 2 => .ok .ldAtDEA 1
    | 3 => .ok .ldAAtDE 1
    | 4 => .ok (.ldAtNNHL (joinBytes b2 b1)) 3
    | 5 => .ok (.ldHLAtNN (joinBytes b2 b1)) 3
    | 6 => .ok (.ldAtNNA (joinBytes b2 b1)) 3
    | _ => .ok (.ldAAtNN (joinBytes b2 b1)) 3
  | 3 =>
    match opQ b0 with
    | 0 => .ok (.incSS (RegSS.ofCode (opP b0))) 1
    | _ => .ok (.decSS (RegSS.ofCode (opP b0))) 1
  | 4 =>
    match Reg.ofCode (opY b0) with
    | some r => .ok (.incR r) 1
    | none => .ok .incAtHL 1
  | 5 =>
    match Reg.ofCode (opY b0) with
    | some r => .ok (.decR r) 1
    | none => .ok .decAtHL 1
  | 6 =>
    match Reg.ofCode (opY b0) with
    | some r => .ok (.ldRN r b1) 2
    | none => .ok (.ldAtHLN b1) 2
  | _ =>
    match opY b0 with
    | 0 => .ok .rlca 1
    | 1 => .ok .rrca 1
    | 2 => .ok .rla 1
    | 3 => .ok .rra 1
    | 4 => .ok .daa 1
    | 5 => .ok .cpl 1
    | 6 => .ok .scf 1
    | _ => .ok .ccf 1

/-- R120, R132: the quarter `x = 1`, the 8-bit register loads; HALT stands where `LD (HL),(HL)` would. -/
def decodeX1 (b0 : Byte) : Decoded :=
  match Reg.ofCode (opY b0), Reg.ofCode (opZ b0) with
  | some rd, some rs => .ok (.ldRR rd rs) 1
  | some rd, none => .ok (.ldRAtHL rd) 1
  | none, some rs => .ok (.ldAtHLR rs) 1
  | none, none => .ok .halt 1

/-- R120: the quarter `x = 2`, ALU operation `y` on A and `r[z]`. -/
def decodeX2 (b0 : Byte) : Decoded :=
  match opY b0, Reg.ofCode (opZ b0) with
  | 0, some r => .ok (.addAR r) 1
  | 0, none => .ok .addAAtHL 1
  | 1, some r => .ok (.adcAR r) 1
  | 1, none => .ok .adcAAtHL 1
  | 2, some r => .ok (.subR r) 1
  | 2, none => .ok .subAtHL 1
  | 3, some r => .ok (.sbcAR r) 1
  | 3, none => .ok .sbcAAtHL 1
  | 4, some r => .ok (.andR r) 1
  | 4, none => .ok .andAtHL 1
  | 5, some r => .ok (.xorR r) 1
  | 5, none => .ok .xorAtHL 1
  | 6, some r => .ok (.orR r) 1
  | 6, none => .ok .orAtHL 1
  | _, some r => .ok (.cpR r) 1
  | _, none => .ok .cpAtHL 1

/-- R120: ALU operation `y` on A and the immediate `n`. -/
def decodeAluN (y : Nat) (n : Byte) : Decoded :=
  match y with
  | 0 => .ok (.addAN n) 2
  | 1 => .ok (.adcAN n) 2
  | 2 => .ok (.subN n) 2
  | 3 => .ok (.sbcAN n) 2
  | 4 => .ok (.andN n) 2
  | 5 => .ok (.xorN n) 2
  | 6 => .ok (.orN n) 2
  | _ => .ok (.cpN n) 2

/-- R120, R101: the quarter `x = 3`, with the four prefix bytes and the tables they select. -/
def decodeX3 (b0 b1 b2 b3 : Byte) : Decoded :=
  match opZ b0 with
  | 0 => .ok (.retCC (Cond.ofCode (opY b0))) 1
  | 1 =>
    match opQ b0, opP b0 with
    | 0, p => .ok (.popQQ (RegQQ.ofCode p)) 1
    | _, 0 => .ok .ret 1
    | _, 1 => .ok .exx 1
    | _, 2 => .ok .jpHL 1
    | _, _ => .ok .ldSPHL 1
  | 2 => .ok (.jpCC (Cond.ofCode (opY b0)) (joinBytes b2 b1)) 3
  | 3 =>
    match opY b0 with
    | 0 => .ok (.jp (joinBytes b2 b1)) 3
    | 1 => decodeCB b1
    | 2 => .ok (.outAtNA b1) 2
    | 3 => .ok (.inAAtN b1) 2
    | 4 => .ok .exAtSPHL 1
    | 5 => .ok .exDEHL 1
    | 6 => .ok .di 1
    | _ => .ok .ei 1
  | 4 => .ok (.callCC (Cond.ofCode (opY b0)) (joinBytes b2 b1)) 3
  | 5 =>
    match opQ b0, opP b0 with
    | 0, p => .ok (.pushQQ (RegQQ.ofCode p)) 1
    | _, 0 => .ok (.call (joinBytes b2 b1)) 3
    | _, 1 => if b1 = 0xCB then decodeDDCB b2 b3 else decodeDD b1 b2 b3
    | _, 2 => decodeED b1 b2 b3
    | _, _ => if b1 = 0xCB then decodeFDCB b2 b3 else decodeFD b1 b2 b3
  | 6 => decodeAluN (opY b0) b1
  | _ => .ok (.rst (fieldFin (opY b0))) 1

/-- R101, R119: the whole opcode table, every row of both generations and all tiers, with no gate. -/
def decodeTables (b0 b1 b2 b3 : Byte) : Decoded :=
  match opX b0 with
  | 0 => decodeX0 b0 b1 b2
  | 1 => decodeX1 b0
  | 2 => decodeX2 b0
  | _ => decodeX3 b0 b1 b2 b3

/-- R118: the twelve first bytes that exist only under `GEN = Z80`. -/
def z80OnlyFirst (b0 : Byte) : Bool :=
  [0x08, 0x10, 0x18, 0x20, 0x28, 0x30, 0x38, 0xD9, 0xCB, 0xDD, 0xED, 0xFD].contains b0.toNat

/-- R118: whether the generation has a first byte. -/
def firstByteAvailable (g : Gen) (b0 : Byte) : Bool :=
  match g with
  | .z80 => true
  | .i80 => !z80OnlyFirst b0

/-- R118, R119, R431: the decoder. The generation rules on the first byte; the tier gate rules on the entry found. -/
def decode (p : Params) (b0 b1 b2 b3 : Byte) : Decoded :=
  match firstByteAvailable p.gen b0 with
  | false => .error .z80Only 1
  | true =>
    match decodeTables b0 b1 b2 b3 with
    | .error why len => .error why len
    | .ok i len =>
      match i.inTier p.tierC with
      | true => .ok i len
      | false => .error .tierC len

/-- The decoder on a list of bytes, with the bytes after the instruction: `none` where the list is shorter than what
the decoder fetches (a missing byte reads as zero only to find that length). -/
def decodeBytes (p : Params) (bs : List Byte) : Option (Decoded × List Byte) :=
  let result := decode p (bs.getD 0 0) (bs.getD 1 0) (bs.getD 2 0) (bs.getD 3 0)
  if result.length ≤ bs.length then some (result, bs.drop result.length) else none

/-! ## The encoder -/

/-- R111 to R114, R103: the bytes of an instruction in fetch order, from the tables R120 to R124. -/
def encode : Instr → List Byte
  | .ldRR rd rs => [opc 1 rd.code rs.code]
  | .ldRN rd n => [opc 0 rd.code 6, n]
  | .ldRAtHL rd => [opc 1 rd.code 6]
  | .ldAtHLR rs => [opc 1 6 rs.code]
  | .ldAtHLN n => [opc 0 6 6, n]
  | .ldAAtBC => [opc 0 1 2]
  | .ldAAtDE => [opc 0 3 2]
  | .ldAtBCA => [opc 0 0 2]
  | .ldAtDEA => [opc 0 2 2]
  | .ldAAtNN nn => [opc 0 7 2, loByte nn, hiByte nn]
  | .ldAtNNA nn => [opc 0 6 2, loByte nn, hiByte nn]
  | .ldSSNN ss nn => [opcPQ 0 ss.code 0 1, loByte nn, hiByte nn]
  | .ldHLAtNN nn => [opc 0 5 2, loByte nn, hiByte nn]
  | .ldAtNNHL nn => [opc 0 4 2, loByte nn, hiByte nn]
  | .ldSPHL => [opc 3 7 1]
  | .pushQQ qq => [opcPQ 3 qq.code 0 5]
  | .popQQ qq => [opcPQ 3 qq.code 0 1]
  | .addAR rs => [opc 2 0 rs.code]
  | .addAN n => [opc 3 0 6, n]
  | .addAAtHL => [opc 2 0 6]
  | .adcAR rs => [opc 2 1 rs.code]
  | .adcAN n => [opc 3 1 6, n]
  | .adcAAtHL => [opc 2 1 6]
  | .subR rs => [opc 2 2 rs.code]
  | .subN n => [opc 3 2 6, n]
  | .subAtHL => [opc 2 2 6]
  | .sbcAR rs => [opc 2 3 rs.code]
  | .sbcAN n => [opc 3 3 6, n]
  | .sbcAAtHL => [opc 2 3 6]
  | .andR rs => [opc 2 4 rs.code]
  | .andN n => [opc 3 4 6, n]
  | .andAtHL => [opc 2 4 6]
  | .xorR rs => [opc 2 5 rs.code]
  | .xorN n => [opc 3 5 6, n]
  | .xorAtHL => [opc 2 5 6]
  | .orR rs => [opc 2 6 rs.code]
  | .orN n => [opc 3 6 6, n]
  | .orAtHL => [opc 2 6 6]
  | .cpR rs => [opc 2 7 rs.code]
  | .cpN n => [opc 3 7 6, n]
  | .cpAtHL => [opc 2 7 6]
  | .incR rd => [opc 0 rd.code 4]
  | .incAtHL => [opc 0 6 4]
  | .decR rd => [opc 0 rd.code 5]
  | .decAtHL => [opc 0 6 5]
  | .addHLSS ss => [opcPQ 0 ss.code 1 1]
  | .incSS ss => [opcPQ 0 ss.code 0 3]
  | .decSS ss => [opcPQ 0 ss.code 1 3]
  | .rlca => [opc 0 0 7]
  | .rrca => [opc 0 1 7]
  | .rla => [opc 0 2 7]
  | .rra => [opc 0 3 7]
  | .daa => [opc 0 4 7]
  | .cpl => [opc 0 5 7]
  | .scf => [opc 0 6 7]
  | .ccf => [opc 0 7 7]
  | .halt => [opc 1 6 6]
  | .nop => [opc 0 0 0]
  | .exAFAF => [opc 0 1 0]
  | .djnz e => [opc 0 2 0, e]
  | .jr e => [opc 0 3 0, e]
  | .jrCC cc e => [opc 0 (cc.code + 4) 0, e]
  | .jp nn => [opc 3 0 3, loByte nn, hiByte nn]
  | .jpCC cc nn => [opc 3 cc.code 2, loByte nn, hiByte nn]
  | .jpHL => [opc 3 5 1]
  | .call nn => [opc 3 1 5, loByte nn, hiByte nn]
  | .callCC cc nn => [opc 3 cc.code 4, loByte nn, hiByte nn]
  | .ret => [opc 3 1 1]
  | .retCC cc => [opc 3 cc.code 0]
  | .rst t => [opc 3 t.val 7]
  | .outAtNA n => [opc 3 2 3, n]
  | .inAAtN n => [opc 3 3 3, n]
  | .exx => [opc 3 3 1]
  | .exAtSPHL => [opc 3 4 3]
  | .exDEHL => [opc 3 5 3]
  | .di => [opc 3 6 3]
  | .ei => [opc 3 7 3]
  | .rlcR rs => [0xCB, opc 0 0 rs.code]
  | .rlcAtHL => [0xCB, opc 0 0 6]
  | .rrcR rs => [0xCB, opc 0 1 rs.code]
  | .rrcAtHL => [0xCB, opc 0 1 6]
  | .rlR rs => [0xCB, opc 0 2 rs.code]
  | .rlAtHL => [0xCB, opc 0 2 6]
  | .rrR rs => [0xCB, opc 0 3 rs.code]
  | .rrAtHL => [0xCB, opc 0 3 6]
  | .slaR rs => [0xCB, opc 0 4 rs.code]
  | .slaAtHL => [0xCB, opc 0 4 6]
  | .sraR rs => [0xCB, opc 0 5 rs.code]
  | .sraAtHL => [0xCB, opc 0 5 6]
  | .srlR rs => [0xCB, opc 0 7 rs.code]
  | .srlAtHL => [0xCB, opc 0 7 6]
  | .bitR b rs => [0xCB, opc 1 b.val rs.code]
  | .bitAtHL b => [0xCB, opc 1 b.val 6]
  | .resR b rs => [0xCB, opc 2 b.val rs.code]
  | .resAtHL b => [0xCB, opc 2 b.val 6]
  | .setR b rs => [0xCB, opc 3 b.val rs.code]
  | .setAtHL b => [0xCB, opc 3 b.val 6]
  | .inRAtC rd => [0xED, opc 1 rd.code 0]
  | .outAtCR rs => [0xED, opc 1 rs.code 1]
  | .sbcHLSS ss => [0xED, opcPQ 1 ss.code 0 2]
  | .adcHLSS ss => [0xED, opcPQ 1 ss.code 1 2]
  | .ldAtNNSS nn ss => [0xED, opcPQ 1 ss.code 0 3, loByte nn, hiByte nn]
  | .ldSSAtNN ss nn => [0xED, opcPQ 1 ss.code 1 3, loByte nn, hiByte nn]
  | .neg => [0xED, opc 1 0 4]
  | .retn => [0xED, opc 1 0 5]
  | .reti => [0xED, opc 1 1 5]
  | .im0 => [0xED, opc 1 0 6]
  | .im1 => [0xED, opc 1 2 6]
  | .im2 => [0xED, opc 1 3 6]
  | .ldIA => [0xED, opc 1 0 7]
  | .ldRA => [0xED, opc 1 1 7]
  | .ldAI => [0xED, opc 1 2 7]
  | .ldAR => [0xED, opc 1 3 7]
  | .rrd => [0xED, opc 1 4 7]
  | .rld => [0xED, opc 1 5 7]
  | .ldi => [0xED, opc 2 4 0]
  | .ldd => [0xED, opc 2 5 0]
  | .ldir => [0xED, opc 2 6 0]
  | .lddr => [0xED, opc 2 7 0]
  | .cpi => [0xED, opc 2 4 1]
  | .cpd => [0xED, opc 2 5 1]
  | .cpir => [0xED, opc 2 6 1]
  | .cpdr => [0xED, opc 2 7 1]
  | .ini => [0xED, opc 2 4 2]
  | .ind => [0xED, opc 2 5 2]
  | .inir => [0xED, opc 2 6 2]
  | .indr => [0xED, opc 2 7 2]
  | .outi => [0xED, opc 2 4 3]
  | .outd => [0xED, opc 2 5 3]
  | .otir => [0xED, opc 2 6 3]
  | .otdr => [0xED, opc 2 7 3]
  | .addIXPP pp => [0xDD, opcPQ 0 pp.code 1 1]
  | .ldIXNN nn => [0xDD, opc 0 4 1, loByte nn, hiByte nn]
  | .ldAtNNIX nn => [0xDD, opc 0 4 2, loByte nn, hiByte nn]
  | .ldIXAtNN nn => [0xDD, opc 0 5 2, loByte nn, hiByte nn]
  | .incIX => [0xDD, opc 0 4 3]
  | .decIX => [0xDD, opc 0 5 3]
  | .incAtIX d => [0xDD, opc 0 6 4, d]
  | .decAtIX d => [0xDD, opc 0 6 5, d]
  | .ldAtIXN d n => [0xDD, opc 0 6 6, d, n]
  | .ldRAtIX rd d => [0xDD, opc 1 rd.code 6, d]
  | .ldAtIXR d rs => [0xDD, opc 1 6 rs.code, d]
  | .addAAtIX d => [0xDD, opc 2 0 6, d]
  | .adcAAtIX d => [0xDD, opc 2 1 6, d]
  | .subAtIX d => [0xDD, opc 2 2 6, d]
  | .sbcAAtIX d => [0xDD, opc 2 3 6, d]
  | .andAtIX d => [0xDD, opc 2 4 6, d]
  | .xorAtIX d => [0xDD, opc 2 5 6, d]
  | .orAtIX d => [0xDD, opc 2 6 6, d]
  | .cpAtIX d => [0xDD, opc 2 7 6, d]
  | .popIX => [0xDD, opc 3 4 1]
  | .exAtSPIX => [0xDD, opc 3 4 3]
  | .pushIX => [0xDD, opc 3 4 5]
  | .jpIX => [0xDD, opc 3 5 1]
  | .ldSPIX => [0xDD, opc 3 7 1]
  | .rlcAtIX d => [0xDD, 0xCB, d, opc 0 0 6]
  | .rrcAtIX d => [0xDD, 0xCB, d, opc 0 1 6]
  | .rlAtIX d => [0xDD, 0xCB, d, opc 0 2 6]
  | .rrAtIX d => [0xDD, 0xCB, d, opc 0 3 6]
  | .slaAtIX d => [0xDD, 0xCB, d, opc 0 4 6]
  | .sraAtIX d => [0xDD, 0xCB, d, opc 0 5 6]
  | .srlAtIX d => [0xDD, 0xCB, d, opc 0 7 6]
  | .bitAtIX b d => [0xDD, 0xCB, d, opc 1 b.val 6]
  | .resAtIX b d => [0xDD, 0xCB, d, opc 2 b.val 6]
  | .setAtIX b d => [0xDD, 0xCB, d, opc 3 b.val 6]
  | .addIYRR rr => [0xFD, opcPQ 0 rr.code 1 1]
  | .ldIYNN nn => [0xFD, opc 0 4 1, loByte nn, hiByte nn]
  | .ldAtNNIY nn => [0xFD, opc 0 4 2, loByte nn, hiByte nn]
  | .ldIYAtNN nn => [0xFD, opc 0 5 2, loByte nn, hiByte nn]
  | .incIY => [0xFD, opc 0 4 3]
  | .decIY => [0xFD, opc 0 5 3]
  | .incAtIY d => [0xFD, opc 0 6 4, d]
  | .decAtIY d => [0xFD, opc 0 6 5, d]
  | .ldAtIYN d n => [0xFD, opc 0 6 6, d, n]
  | .ldRAtIY rd d => [0xFD, opc 1 rd.code 6, d]
  | .ldAtIYR d rs => [0xFD, opc 1 6 rs.code, d]
  | .addAAtIY d => [0xFD, opc 2 0 6, d]
  | .adcAAtIY d => [0xFD, opc 2 1 6, d]
  | .subAtIY d => [0xFD, opc 2 2 6, d]
  | .sbcAAtIY d => [0xFD, opc 2 3 6, d]
  | .andAtIY d => [0xFD, opc 2 4 6, d]
  | .xorAtIY d => [0xFD, opc 2 5 6, d]
  | .orAtIY d => [0xFD, opc 2 6 6, d]
  | .cpAtIY d => [0xFD, opc 2 7 6, d]
  | .popIY => [0xFD, opc 3 4 1]
  | .exAtSPIY => [0xFD, opc 3 4 3]
  | .pushIY => [0xFD, opc 3 4 5]
  | .jpIY => [0xFD, opc 3 5 1]
  | .ldSPIY => [0xFD, opc 3 7 1]
  | .rlcAtIY d => [0xFD, 0xCB, d, opc 0 0 6]
  | .rrcAtIY d => [0xFD, 0xCB, d, opc 0 1 6]
  | .rlAtIY d => [0xFD, 0xCB, d, opc 0 2 6]
  | .rrAtIY d => [0xFD, 0xCB, d, opc 0 3 6]
  | .slaAtIY d => [0xFD, 0xCB, d, opc 0 4 6]
  | .sraAtIY d => [0xFD, 0xCB, d, opc 0 5 6]
  | .srlAtIY d => [0xFD, 0xCB, d, opc 0 7 6]
  | .bitAtIY b d => [0xFD, 0xCB, d, opc 1 b.val 6]
  | .resAtIY b d => [0xFD, 0xCB, d, opc 2 b.val 6]
  | .setAtIY b d => [0xFD, 0xCB, d, opc 3 b.val 6]

/-- R100: the length of an instruction in bytes. -/
def Instr.length (i : Instr) : Nat := (encode i).length

/-! ## Words as the opcode table numbers them -/

/-- The `k` bytes of `w`, most significant first: the table writes the first byte of an instruction as the high digits
of `match` (log 9). -/
def bytesHighFirst : Nat → Nat → List Byte
  | 0, _ => []
  | k + 1, w => BitVec.ofNat 8 (w / 256 ^ k) :: bytesHighFirst k w

/-- The `k` bytes of `w`, least significant first (log 9). -/
def bytesLowFirst : Nat → Nat → List Byte
  | 0, _ => []
  | k + 1, w => BitVec.ofNat 8 w :: bytesLowFirst k (w / 256)

/-- What the decoder answers on the first four of these bytes, missing ones zero. -/
def decodeList (p : Params) (bs : List Byte) : Decoded :=
  decode p (bs.getD 0 0) (bs.getD 1 0) (bs.getD 2 0) (bs.getD 3 0)

/-- Whether these bytes are exactly one instruction. -/
def isWholeInstr (p : Params) (bs : List Byte) : Bool :=
  match decodeList p bs with
  | .ok _ len => len == bs.length
  | .error _ _ => false

/-- The bytes of a table word of `nbits` bits in fetch order: high byte first as the table writes them, or low byte
first where only that order is one whole instruction (log 9). -/
def tableBytes (p : Params) (nbits w : Nat) : List Byte :=
  let high := bytesHighFirst (nbits / 8) w
  let low := bytesLowFirst (nbits / 8) w
  match isWholeInstr p high, isWholeInstr p low with
  | false, true => low
  | _, _ => high

/-- The instruction the decoder reads from a table word, under the default parameters. -/
def decodeTableWord (nbits w : Nat) : Option Instr :=
  match decodeList Params.default (tableBytes Params.default nbits w) with
  | .ok i _ => some i
  | .error _ _ => none

end Sys2Proof
end

