-- ==== Sys2Proof/Machine/State.lean ====
section
/-!
DEFINITION. State: everything the spec gives CORE (10_state.md R30, R49), the configuration and the I/O trace that stand
beside it (R50), and the reasons a step can stop. INVENTORY.md lists each field with its rule and reset value.
-/
namespace Sys2Proof.Machine

/-- R37: the flag register F, one Bool for each of its eight bits, bit 7 first. X5 and X3 are storage (log 10). -/
structure Flags where
  s : Bool
  z : Bool
  x5 : Bool
  h : Bool
  x3 : Bool
  pv : Bool
  n : Bool
  c : Bool
  deriving DecidableEq, Repr

/-- R47: memory as the list of the cells that differ from `Memory.unlisted`, addresses strictly rising (log 3). -/
abbrev Memory := List Host.Cell

/-- R49, R434: the run status. `faulted` carries what R432 records, the address and the bytes fetched, and whether the
host has written PC since (the model's own mark for R436, log 16). -/
inductive RunStatus where
  | idle
  | running
  | faulted (addr : Word) (bytes : List Byte) (pcWritten : Bool)
  deriving DecidableEq, Repr

/-- R30: the architectural state, with the run status (R49), and beside it `params` (R7, R50), `ioTrace` (R410, R50) and
`draws`, the model's own count of free values drawn (R16, log 4). -/
@[ext]
structure State where
  /-- R31: the accumulator. -/
  a : Byte
  /-- R37. -/
  f : Flags
  /-- R31. -/
  b : Byte
  /-- R31. -/
  c : Byte
  /-- R31. -/
  d : Byte
  /-- R31. -/
  e : Byte
  /-- R31. -/
  h : Byte
  /-- R31. -/
  l : Byte
  /-- R33: A'. -/
  aAlt : Byte
  /-- R33: F'. -/
  fAlt : Flags
  /-- R33: B'. -/
  bAlt : Byte
  /-- R33: C'. -/
  cAlt : Byte
  /-- R33: D'. -/
  dAlt : Byte
  /-- R33: E'. -/
  eAlt : Byte
  /-- R33: H'. -/
  hAlt : Byte
  /-- R33: L'. -/
  lAlt : Byte
  /-- R34. -/
  ix : Word
  /-- R34. -/
  iy : Word
  /-- R35. -/
  sp : Word
  /-- R39. -/
  pc : Word
  /-- R38. -/
  i : Byte
  /-- R36. -/
  r : Byte
  /-- R47. -/
  mem : Memory
  /-- R49. -/
  status : RunStatus
  /-- R7. -/
  params : Params
  /-- R410, R411: the I/O trace, oldest event first. -/
  ioTrace : List IoEvent
  /-- R16: how many free values have been drawn (the model's own field). -/
  draws : Nat
  deriving DecidableEq, Repr

/-- What can make the machine stop with a fault. No step faults; only the host's moves can. -/
inductive Fault where
  /-- Raised by every move of the host port made during a run: R21 leaves the host no move there, so the machine is
  stuck (safe). -/
  | hostMoveDuringRun
  deriving DecidableEq, Repr

/-- What has no meaning. -/
inductive Refusal where
  /-- Raised by an arm of `exec` whose instruction has no meaning yet (safe); no arm does. -/
  | notModelled (mnemonic : String)
  /-- Raised by `step` for a fetch, and by a meaning for a word access, that crosses from 0xFFFF to 0x0000 under
  `WRAP_FFFF = fault` (R76; safe). -/
  | wrapsAtTop
  /-- Raised by a host call outside its guarantee (R24: past the end of memory; log 23 for the reversed
  word pair; safe). -/
  | hostCallOutsideGuarantee
  /-- Raised by a run started from `faulted` without PC written (R436; safe). -/
  | pcUnspecified
  deriving DecidableEq, Repr

/-- What a step, a meaning or a host move answers. -/
abbrev Result := Host.Outcome State Fault Refusal

/-- All flags clear. -/
def Flags.clear : Flags :=
  { s := false, z := false, x5 := false, h := false, x3 := false, pv := false, n := false, c := false }

/-- R51, R460: the state at creation. The run status is the spec's; every register is the model's zero (DESIGN CHOICE,
log 2; unsafe), memory lists nothing (log 3), the parameters are the spec's defaults with the model's `GEN` (log 1). -/
def State.reset : State :=
  { a := 0, f := Flags.clear, b := 0, c := 0, d := 0, e := 0, h := 0, l := 0,
    aAlt := 0, fAlt := Flags.clear, bAlt := 0, cAlt := 0, dAlt := 0, eAlt := 0, hAlt := 0, lAlt := 0,
    ix := 0, iy := 0, sp := 0, pc := 0, i := 0, r := 0,
    mem := [], status := .idle, params := Params.default, ioTrace := [], draws := 0 }

end Sys2Proof.Machine
end

