-- ==== Sys2Proof/Machine/Ops.lean ====
section
/-!
DEFINITION. Ops: the named operations every meaning is made of: memory bytes and words (20_memory.md), the stack
(46_jump_call_return.md R360), fetching (00_scope.md R13), free values (R16), ports (49_io.md R410, R411), the repeat
mechanism (42_block_transfer_compare.md R231), and the one exception, DecodeError (60_exceptions.md R431 to R436).
There is no return from it (R435, R444).
-/
namespace Sys2Proof.Machine

/-! ## Memory (R71, R73) -/

/-- What an unlisted cell reads as (DESIGN CHOICE, log 3; unsafe). -/
def Memory.unlisted : Byte := 0x00

/-- R71: the content of a cell. -/
def Memory.read (m : Memory) (addr : Nat) : Byte :=
  match m with
  | [] => Memory.unlisted
  | cell :: rest => if cell.1 = addr then cell.2 else Memory.read rest addr

/-- Every entry of a cell taken out. -/
def Memory.erase (m : Memory) (addr : Nat) : Memory := m.filter (fun cell => decide (cell.1 ≠ addr))

/-- A cell put before the first listed cell above it. -/
def Memory.insert (m : Memory) (addr : Nat) (v : Byte) : Memory :=
  match m with
  | [] => [(addr, v)]
  | cell :: rest => if addr < cell.1 then (addr, v) :: cell :: rest else cell :: Memory.insert rest addr v

/-- R73: a cell written, the canonical form kept: the value of an unlisted cell takes the entry out. -/
def Memory.write (m : Memory) (addr : Nat) (v : Byte) : Memory :=
  if v = Memory.unlisted then m.erase addr else (m.erase addr).insert addr v

/-- The canonical form: addresses of the 16-bit space strictly rising, no cell equal to what an unlisted one reads as. -/
def Memory.wf (m : Memory) : Bool :=
  match m with
  | [] => true
  | cell :: rest =>
    decide (cell.1 < 65536) && decide (cell.2 ≠ Memory.unlisted) &&
      rest.all (fun later => decide (cell.1 < later.1)) && Memory.wf rest

/-- R71: `MemRead(addr, 1)`. -/
def State.readByte (s : State) (addr : Word) : Byte := s.mem.read addr.toNat

/-- R73: `MemWrite(addr, 1, v)`. -/
def State.writeByte (s : State) (addr : Word) (v : Byte) : State :=
  { s with mem := s.mem.write addr.toNat v }

/-- R74: `MemRead(addr, 2)`, low byte at the lower address, the second address mod 2^16 (R76). -/
def State.readWord (s : State) (addr : Word) : Word :=
  joinBytes (s.readByte (addr + 1)) (s.readByte addr)

/-- R75: `MemWrite(addr, 2, v)`, low byte first. -/
def State.writeWord (s : State) (addr : Word) (v : Word) : State :=
  (s.writeByte addr (loByte v)).writeByte (addr + 1) (hiByte v)

/-- R76: a word access at this address crosses from 0xFFFF to 0x0000 where `WRAP_FFFF = fault` gives that no meaning
(log 13). -/
def State.wordForbidden (s : State) (addr : Word) : Bool :=
  match s.params.wrapFfff with
  | .wrap => false
  | .fault => addr == 0xFFFF

/-- R76: the next state of an instruction with a word access at this address, or the refusal. -/
def State.afterWordAccess (s : State) (addr : Word) (t : State) : Result :=
  match s.wordForbidden addr with
  | false => .next t
  | true => .refused .wrapsAtTop

/-! ## The stack (R206, R207, R360) -/

/-- R360: `push16`, SP down by 2, then the high byte at SP+1, then the low byte at SP. -/
def State.push16 (s : State) (v : Word) : State :=
  ({ s with sp := s.sp - 2 }.writeByte (s.sp - 2 + 1) (hiByte v)).writeByte (s.sp - 2) (loByte v)

/-- R360: the value `pop16` returns. -/
def State.popValue (s : State) : Word := s.readWord s.sp

/-- R360: what `pop16` does to SP. -/
def State.popSP (s : State) : State := { s with sp := s.sp + 2 }

/-! ## Free values (R16, log 4, log 19) -/

/-- R16: the `k`-th `UNSPEC_1()` of this instruction. -/
def State.freshBit (s : State) (k : Nat) : Bool := Config.unspecBit (s.draws + k)

/-- R16: the `k`-th `UNSPEC_8()` of this instruction. -/
def State.freshByte (s : State) (k : Nat) : Byte := Config.unspecByte (s.draws + k)

/-- R37: F written by an instruction that writes a flag: X5 and X3 become unspecified. `extra` counts the further free
values the instruction draws, numbered from 2. -/
def State.writeFlags (s : State) (extra : Nat) (g : Flags) : State :=
  { s with f := { g with x5 := s.freshBit 0, x3 := s.freshBit 1 }, draws := s.draws + (2 + extra) }

/-! ## Ports (R410, R411, log 5) -/

/-- R410: the byte `IoRead(port)` returns now. -/
def State.portValue (s : State) (port : Byte) : Byte := Config.ioRead port s.ioTrace

/-- R410: the event `in(port, value)` recorded. -/
def State.recordIn (s : State) (port : Byte) : State :=
  { s with ioTrace := s.ioTrace ++ [.input port (s.portValue port)] }

/-- R411: `IoWrite(port, v)`, which only records the event `out(port, v)`. -/
def State.recordOut (s : State) (port v : Byte) : State :=
  { s with ioTrace := s.ioTrace ++ [.output port v] }

/-! ## The repeat mechanism (R231, log 12) -/

/-- R231: `repeat body until stop`, the test after each iteration, at most `fuel` iterations. -/
def repeatUntil (body : State → State) (stop : State → Bool) : Nat → State → State
  | 0, s => s
  | fuel + 1, s =>
    match stop (body s) with
    | true => body s
    | false => repeatUntil body stop fuel (body s)

/-- R231, R475: how many iterations `repeatUntil` runs. -/
def repeatCount (body : State → State) (stop : State → Bool) : Nat → State → Nat
  | 0, _ => 0
  | fuel + 1, s =>
    match stop (body s) with
    | true => 1
    | false => repeatCount body stop fuel (body s) + 1

/-- R231: BC reaches 0 within 65536 iterations. -/
def repeatFuelBC : Nat := 65536

/-- R231: B reaches 0 within 256 iterations. -/
def repeatFuelB : Nat := 256

/-! ## Fetching (R13, R80, log 11) -/

/-- R13: `Fetch8()`. -/
def State.fetch8 (s : State) : Byte × State :=
  (s.readByte s.pc, { s with pc := s.pc + 1, r := s.r + 1 })

/-- R13: `n` times `Fetch8()`, in address order. -/
def State.fetchBytes : Nat → State → List Byte × State
  | 0, s => ([], s)
  | n + 1, s => (s.fetch8.1 :: (fetchBytes n s.fetch8.2).1, (fetchBytes n s.fetch8.2).2)

/-- R101, R119: what decodes at PC. -/
def State.decodeNext (s : State) : Decoded :=
  decode s.params (s.readByte s.pc) (s.readByte (s.pc + 1)) (s.readByte (s.pc + 2)) (s.readByte (s.pc + 3))

/-- R76: the fetch of `len` bytes crosses from 0xFFFF to 0x0000 where `WRAP_FFFF = fault` gives that no meaning (log 13). -/
def State.fetchForbidden (s : State) (len : Nat) : Bool :=
  match s.params.wrapFfff with
  | .wrap => false
  | .fault => decide (65536 < s.pc.toNat + len)

/-- Bytes stored at rising addresses mod 2^16. -/
def State.placeBytes (s : State) (addr : Word) : List Byte → State
  | [] => s
  | v :: rest => (s.writeByte addr v).placeBytes (addr + 1) rest

/-! ## Taking the exception (R431 to R434, log 6) -/

/-- R432, R433, R434: DecodeError in the state before the fetch, with the bytes fetched. The run status becomes
`faulted` with the address and the bytes; PC and R become unspecified; nothing else changes. -/
def State.takeDecodeError (s : State) (bytes : List Byte) : State :=
  { s with status := .faulted s.pc bytes false, pc := Config.unspecWord s.draws, r := Config.unspecByte (s.draws + 1),
           draws := s.draws + 2 }

end Sys2Proof.Machine
end

