-- ==== Sys2Proof/Machine/Operands.lean ====
section
/-!
DEFINITION. Operands: the register fields and pairs (10_state.md R10, R32, R40 to R43), the indexed address
(41_load_store.md R176), the jump displacement (30_encoding.md R113), the conditions (40_alu_helpers.md R155), and F as a
byte (10_state.md R37).
-/
namespace Sys2Proof.Machine

/-- R37: F as the byte that PUSH AF stores: S Z X5 H X3 PV N C from bit 7 to bit 0. -/
def Flags.toByte (g : Flags) : Byte :=
  BitVec.ofNat 8 (g.s.toNat * 128 + g.z.toNat * 64 + g.x5.toNat * 32 + g.h.toNat * 16 + g.x3.toNat * 8 + g.pv.toNat * 4
    + g.n.toNat * 2 + g.c.toNat)

/-- R37: F from the byte that POP AF loads. -/
def Flags.ofByte (v : Byte) : Flags :=
  { s := v.getLsbD 7, z := v.getLsbD 6, x5 := v.getLsbD 5, h := v.getLsbD 4, x3 := v.getLsbD 3, pv := v.getLsbD 2,
    n := v.getLsbD 1, c := v.getLsbD 0 }

/-! ## Pairs as views (R10, R32) -/

/-- R32: `BC = B :: C`. -/
def State.bc (s : State) : Word := joinBytes s.b s.c

/-- R32: `DE = D :: E`. -/
def State.de (s : State) : Word := joinBytes s.d s.e

/-- R32: `HL = H :: L`. -/
def State.hl (s : State) : Word := joinBytes s.h s.l

/-- R32: `AF = A :: F`. -/
def State.af (s : State) : Word := joinBytes s.a s.f.toByte

/-- R10: `BC <- v`. -/
def State.setBC (s : State) (v : Word) : State := { s with b := hiByte v, c := loByte v }

/-- R10: `DE <- v`. -/
def State.setDE (s : State) (v : Word) : State := { s with d := hiByte v, e := loByte v }

/-- R10: `HL <- v`. -/
def State.setHL (s : State) (v : Word) : State := { s with h := hiByte v, l := loByte v }

/-- R10, R207: `AF <- v`, all eight bits of F as data. -/
def State.setAF (s : State) (v : Word) : State := { s with a := hiByte v, f := Flags.ofByte (loByte v) }

/-! ## Register fields (R40 to R43) -/

/-- R40: `r[k]` read. -/
def State.getR (s : State) : Reg → Byte
  | .b => s.b | .c => s.c | .d => s.d | .e => s.e | .h => s.h | .l => s.l | .a => s.a

/-- R40: `r[k] <- v`. -/
def State.setR (s : State) (r : Reg) (v : Byte) : State :=
  match r with
  | .b => { s with b := v }
  | .c => { s with c := v }
  | .d => { s with d := v }
  | .e => { s with e := v }
  | .h => { s with h := v }
  | .l => { s with l := v }
  | .a => { s with a := v }

/-- R41: `ss[p]` read. -/
def State.getSS (s : State) : RegSS → Word
  | .bc => s.bc | .de => s.de | .hl => s.hl | .sp => s.sp

/-- R41: `ss[p] <- v`. -/
def State.setSS (s : State) (ss : RegSS) (v : Word) : State :=
  match ss with
  | .bc => s.setBC v
  | .de => s.setDE v
  | .hl => s.setHL v
  | .sp => { s with sp := v }

/-- R42: `qq[p]` read. -/
def State.getQQ (s : State) : RegQQ → Word
  | .bc => s.bc | .de => s.de | .hl => s.hl | .af => s.af

/-- R42: `qq[p] <- v`. -/
def State.setQQ (s : State) (qq : RegQQ) (v : Word) : State :=
  match qq with
  | .bc => s.setBC v
  | .de => s.setDE v
  | .hl => s.setHL v
  | .af => s.setAF v

/-- R43: `pp[p]` read. -/
def State.getPP (s : State) : RegPP → Word
  | .bc => s.bc | .de => s.de | .ix => s.ix | .sp => s.sp

/-- R43: `rr[p]` read. -/
def State.getRR (s : State) : RegRR → Word
  | .bc => s.bc | .de => s.de | .iy => s.iy | .sp => s.sp

/-! ## Addresses (R9, R113, R114, R176) -/

/-- R9: `sext_16(v)`. -/
def sext16 (v : Byte) : Word := BitVec.signExtend 16 v

/-- R176: the address of `(IX+d)`. -/
def State.eaIX (s : State) (d : Byte) : Word := s.ix + sext16 d

/-- R176: the address of `(IY+d)`. -/
def State.eaIY (s : State) (d : Byte) : Word := s.iy + sext16 d

/-- R113: the target of a relative jump, PC standing after the instruction. -/
def State.relTarget (s : State) (e : Byte) : Word := s.pc + sext16 e

/-! ## Conditions (R155, R351) -/

/-- R155: `cond(cc)`. -/
def State.cond (s : State) : Cond → Bool
  | .nz => !s.f.z | .z => s.f.z | .nc => !s.f.c | .c => s.f.c
  | .po => !s.f.pv | .pe => s.f.pv | .p => !s.f.s | .m => s.f.s

/-- R351: the condition of `JR cc,e`. -/
def State.condJR (s : State) : CondJR → Bool
  | .nz => !s.f.z | .z => s.f.z | .nc => !s.f.c | .c => s.f.c

end Sys2Proof.Machine
end

