-- ==== Sys2Proof/Machine/Flags.lean ====
section
/-!
DEFINITION. Flags: the ALU helpers of 40_alu_helpers.md (R140 to R154), written as its pseudocode is: operands taken as
numbers, the result computed exactly and narrowed at the end; and the flag effects shared by families of instructions.
-/
namespace Sys2Proof.Machine

/-! ## Results of the helpers -/

/-- R142, R143, R147: what `add8`, `sub8` and `logic8` return. -/
structure Alu8 where
  res : Byte
  s : Bool
  z : Bool
  h : Bool
  pv : Bool
  n : Bool
  c : Bool
  deriving DecidableEq, Repr

/-- R145, R146: what `inc8` and `dec8` return, no carry. -/
structure Inc8 where
  res : Byte
  s : Bool
  z : Bool
  h : Bool
  pv : Bool
  n : Bool
  deriving DecidableEq, Repr

/-- R148: what `add16` returns. -/
structure Add16 where
  res : Word
  h : Bool
  n : Bool
  c : Bool
  deriving DecidableEq, Repr

/-- R149, R150: what `adc16` and `sbc16` return. -/
structure Alu16 where
  res : Word
  s : Bool
  z : Bool
  h : Bool
  pv : Bool
  n : Bool
  c : Bool
  deriving DecidableEq, Repr

/-- R151: what `rot8` returns. -/
structure Rot8 where
  res : Byte
  cout : Bool
  deriving DecidableEq, Repr

/-- R153: what `daa` returns, N not among it. -/
structure Daa where
  res : Byte
  s : Bool
  z : Bool
  h : Bool
  pv : Bool
  c : Bool
  deriving DecidableEq, Repr

/-- R151: the seven kinds of rotate and shift. -/
inductive RotKind where
  | rlc | rrc | rl | rr | sla | sra | srl
  deriving DecidableEq, Repr

/-- R147: the three logic operations. -/
inductive LogicOp where
  | and | xor | or
  deriving DecidableEq, Repr

/-! ## Bits -/

/-- Bit 7 of a byte, its sign (R8). -/
def bit7 (v : Byte) : Bool := v.getLsbD 7

/-- Bit 15 of a word, its sign (R8). -/
def bit15 (v : Word) : Bool := v.getLsbD 15

/-- R141: `parity_even(v) = 1 ^ v[7] ^ ... ^ v[0]`. -/
def parityEven (v : Byte) : Bool :=
  true ^^ v.getLsbD 7 ^^ v.getLsbD 6 ^^ v.getLsbD 5 ^^ v.getLsbD 4 ^^ v.getLsbD 3 ^^ v.getLsbD 2 ^^ v.getLsbD 1
    ^^ v.getLsbD 0

/-- R144: PV after 8-bit arithmetic, the signed overflow or the parity by generation. -/
def pvArith (g : Gen) (ovf : Bool) (res : Byte) : Bool :=
  match g with
  | .z80 => ovf
  | .i80 => parityEven res

/-! ## 8-bit arithmetic and logic -/

/-- R142. -/
def add8 (g : Gen) (a b : Byte) (cin : Bool) : Alu8 :=
  let t := a.toNat + b.toNat + cin.toNat
  let res : Byte := BitVec.ofNat 8 t
  { res := res, s := bit7 res, z := decide (res = 0), h := decide (a.toNat % 16 + b.toNat % 16 + cin.toNat > 15),
    pv := pvArith g (decide (bit7 a = bit7 b ∧ bit7 res ≠ bit7 a)) res, n := false, c := decide (t > 255) }

/-- R143. -/
def sub8 (g : Gen) (a b : Byte) (cin : Bool) : Alu8 :=
  let t : Int := (a.toNat : Int) - b.toNat - cin.toNat
  let res : Byte := BitVec.ofInt 8 t
  { res := res, s := bit7 res, z := decide (res = 0), h := decide (a.toNat % 16 < b.toNat % 16 + cin.toNat),
    pv := pvArith g (decide (bit7 a ≠ bit7 b ∧ bit7 res ≠ bit7 a)) res, n := true, c := decide (t < 0) }

/-- R145. -/
def inc8 (g : Gen) (v : Byte) : Inc8 :=
  let res : Byte := BitVec.ofNat 8 (v.toNat + 1)
  { res := res, s := bit7 res, z := decide (res = 0), h := decide (v.toNat % 16 = 15),
    pv := pvArith g (decide (v = 0x7F)) res, n := false }

/-- R146. -/
def dec8 (g : Gen) (v : Byte) : Inc8 :=
  let res : Byte := BitVec.ofInt 8 ((v.toNat : Int) - 1)
  { res := res, s := bit7 res, z := decide (res = 0), h := decide (v.toNat % 16 = 0),
    pv := pvArith g (decide (v = 0x80)) res, n := true }

/-- R147: the result of a logic operation. -/
def LogicOp.apply (op : LogicOp) (a b : Byte) : Byte :=
  match op with
  | .and => a &&& b
  | .xor => a ^^^ b
  | .or => a ||| b

/-- R147. -/
def logic8 (op : LogicOp) (a b : Byte) : Alu8 :=
  let res := op.apply a b
  { res := res, s := bit7 res, z := decide (res = 0), h := decide (op = .and), pv := parityEven res, n := false, c := false }

/-! ## 16-bit arithmetic -/

/-- R148. -/
def add16 (a b : Word) : Add16 :=
  let t := a.toNat + b.toNat
  { res := BitVec.ofNat 16 t, h := decide (a.toNat % 4096 + b.toNat % 4096 > 4095), n := false, c := decide (t > 65535) }

/-- R149. -/
def adc16 (a b : Word) (cin : Bool) : Alu16 :=
  let t := a.toNat + b.toNat + cin.toNat
  let res : Word := BitVec.ofNat 16 t
  { res := res, s := bit15 res, z := decide (res = 0), h := decide (a.toNat % 4096 + b.toNat % 4096 + cin.toNat > 4095),
    pv := decide (bit15 a = bit15 b ∧ bit15 res ≠ bit15 a), n := false, c := decide (t > 65535) }

/-- R150. -/
def sbc16 (a b : Word) (cin : Bool) : Alu16 :=
  let t : Int := (a.toNat : Int) - b.toNat - cin.toNat
  let res : Word := BitVec.ofInt 16 t
  { res := res, s := bit15 res, z := decide (res = 0), h := decide (a.toNat % 4096 < b.toNat % 4096 + cin.toNat),
    pv := decide (bit15 a ≠ bit15 b ∧ bit15 res ≠ bit15 a), n := true, c := decide (t < 0) }

/-! ## Rotates and shifts -/

/-- R151: bits 6 to 0 of a byte moved up by one, a bit put in at the right. -/
def shiftLeftIn (v : Byte) (low : Bool) : Byte := BitVec.ofNat 8 (v.toNat % 128 * 2 + low.toNat)

/-- R151: bits 7 to 1 of a byte moved down by one, a bit put in at the left. -/
def shiftRightIn (high : Bool) (v : Byte) : Byte := BitVec.ofNat 8 (high.toNat * 128 + v.toNat / 2)

/-- R151. -/
def rot8 (kind : RotKind) (v : Byte) (cin : Bool) : Rot8 :=
  match kind with
  | .rlc => { res := shiftLeftIn v (v.getLsbD 7), cout := v.getLsbD 7 }
  | .rrc => { res := shiftRightIn (v.getLsbD 0) v, cout := v.getLsbD 0 }
  | .rl => { res := shiftLeftIn v cin, cout := v.getLsbD 7 }
  | .rr => { res := shiftRightIn cin v, cout := v.getLsbD 0 }
  | .sla => { res := shiftLeftIn v false, cout := v.getLsbD 7 }
  | .sra => { res := shiftRightIn (v.getLsbD 7) v, cout := v.getLsbD 0 }
  | .srl => { res := shiftRightIn false v, cout := v.getLsbD 0 }

/-- R305, R306: a byte from its high and its low nibble. -/
def joinNibbles (high low : Nat) : Byte := BitVec.ofNat 8 (high * 16 + low)

/-- R305: `v[7:4]`. -/
def highNibble (v : Byte) : Nat := v.toNat / 16

/-- R305: `v[3:0]`. -/
def lowNibble (v : Byte) : Nat := v.toNat % 16

/-! ## BCD corrector -/

/-- R153: `corr`, made of 0x06 and 0x60. -/
def daaCorrection (a : Byte) (cin hin : Bool) : Nat :=
  (if hin = true ∨ a.toNat % 16 > 9 then 0x06 else 0) + (if cin = true ∨ a.toNat > 0x99 then 0x60 else 0)

/-- R153: the total DAA function, the same in both generations (R154, log 14). -/
def daa (a : Byte) (nin cin hin : Bool) : Daa :=
  let lo := a.toNat % 16
  let corr := daaCorrection a cin hin
  let res : Byte :=
    match nin with
    | false => BitVec.ofNat 8 (a.toNat + corr)
    | true => BitVec.ofInt 8 ((a.toNat : Int) - corr)
  let hout :=
    match nin with
    | false => decide (lo > 9)
    | true => decide (hin = true ∧ lo < 6)
  { res := res, s := bit7 res, z := decide (res = 0), h := hout, pv := parityEven res,
    c := decide (cin = true ∨ a.toNat > 0x99) }

/-! ## Shared flag effects -/

/-- The six flags from an ALU result (R250). -/
def State.aluFlags (s : State) (o : Alu8) : State :=
  s.writeFlags 0 { s.f with s := o.s, z := o.z, h := o.h, pv := o.pv, n := o.n, c := o.c }

/-- R250: the accumulator and the six flags from an ALU result. -/
def State.aluA (s : State) (o : Alu8) : State := { s with a := o.res }.aluFlags o

/-- R283, R286: the flags of INC and DEC, Carry unchanged. -/
def State.incFlags (s : State) (o : Inc8) : State :=
  s.writeFlags 0 { s.f with s := o.s, z := o.z, h := o.h, pv := o.pv, n := o.n }

/-- R291, R296: the flags of a 16-bit ADD; S, Z, PV unchanged. -/
def State.add16Flags (s : State) (o : Add16) : State :=
  s.writeFlags 0 { s.f with h := o.h, n := o.n, c := o.c }

/-- R292, R293: the six flags of ADC HL and SBC HL. -/
def State.alu16Flags (s : State) (o : Alu16) : State :=
  s.writeFlags 0 { s.f with s := o.s, z := o.z, h := o.h, pv := o.pv, n := o.n, c := o.c }

/-- R301 to R304: the accumulator rotates, which write only H, N and C. -/
def State.rotateA (s : State) (kind : RotKind) : State :=
  { s with a := (rot8 kind s.a s.f.c).res }.writeFlags 0 { s.f with h := false, n := false, c := (rot8 kind s.a s.f.c).cout }

/-- R307 (a): the flags of a CB-table rotate or shift. -/
def State.rotFlags (s : State) (o : Rot8) : State :=
  s.writeFlags 0
    { s.f with s := bit7 o.res, z := decide (o.res = 0), h := false, pv := parityEven o.res, n := false, c := o.cout }

/-- R307 (b): the flags of BIT; S and PV are unspecified. -/
def State.bitFlags (s : State) (tested : Bool) : State :=
  s.writeFlags 2 { s.f with z := !tested, h := true, n := false, s := s.freshBit 2, pv := s.freshBit 3 }

/-- R333: `v | (1 << b)`. -/
def setBit (b : Fin 8) (v : Byte) : Byte := v ||| (1#8 <<< b.val)

/-- R336: `v & ~(1 << b)`. -/
def resetBit (b : Fin 8) (v : Byte) : Byte := v &&& (0xFF#8 ^^^ (1#8 <<< b.val))

/-- R305, R414: S, Z, PV (parity) from a byte, H and N clear, Carry unchanged. -/
def State.byteFlags (s : State) (v : Byte) : State :=
  s.writeFlags 0 { s.f with s := bit7 v, z := decide (v = 0), h := false, pv := parityEven v, n := false }

/-- R203, R205: S and Z from the byte loaded, H and N clear, PV unspecified, Carry unchanged. -/
def State.loadedFlags (s : State) (v : Byte) : State :=
  s.writeFlags 2 { s.f with s := bit7 v, z := decide (v = 0), h := false, pv := s.freshBit 2, n := false }

/-- R232: PV from BC, H and N clear; S, Z, Carry unchanged. -/
def State.transferFlags (s : State) : State :=
  s.writeFlags 0 { s.f with pv := decide (s.bc ≠ 0), h := false, n := false }

/-- R416: Z from B, N set; S, H, PV unspecified; Carry unchanged. -/
def State.blockIoFlags (s : State) : State :=
  s.writeFlags 3
    { s.f with z := decide (s.b = 0), n := true, s := s.freshBit 2, h := s.freshBit 3, pv := s.freshBit 4 }

end Sys2Proof.Machine
end

