-- ==== Sys2Proof/Machine/Arith16.lean ====
section
/-!
DEFINITION. Arith16: 16-bit arithmetic (44_arith_16bit.md R290 to R298).
-/
namespace Sys2Proof.Machine

/-- R291 `ADD HL,ss`. -/
def execAddHLSS (ss : RegSS) (s : State) : Result :=
  .next ((s.setHL (add16 s.hl (s.getSS ss)).res).add16Flags (add16 s.hl (s.getSS ss)))

/-- R292 `ADC HL,ss`. -/
def execAdcHLSS (ss : RegSS) (s : State) : Result :=
  .next ((s.setHL (adc16 s.hl (s.getSS ss) s.f.c).res).alu16Flags (adc16 s.hl (s.getSS ss) s.f.c))

/-- R293 `SBC HL,ss`. -/
def execSbcHLSS (ss : RegSS) (s : State) : Result :=
  .next ((s.setHL (sbc16 s.hl (s.getSS ss) s.f.c).res).alu16Flags (sbc16 s.hl (s.getSS ss) s.f.c))

/-- R294 `INC ss`. -/
def execIncSS (ss : RegSS) (s : State) : Result :=
  .next (s.setSS ss (s.getSS ss + 1))

/-- R295 `DEC ss`. -/
def execDecSS (ss : RegSS) (s : State) : Result :=
  .next (s.setSS ss (s.getSS ss - 1))

/-- R296 `ADD IX,pp`. -/
def execAddIXPP (pp : RegPP) (s : State) : Result :=
  .next ({ s with ix := (add16 s.ix (s.getPP pp)).res }.add16Flags (add16 s.ix (s.getPP pp)))

/-- R296 `ADD IY,rr`. -/
def execAddIYRR (rr : RegRR) (s : State) : Result :=
  .next ({ s with iy := (add16 s.iy (s.getRR rr)).res }.add16Flags (add16 s.iy (s.getRR rr)))

/-- R297 `INC IX`. -/
def execIncIX (s : State) : Result :=
  .next { s with ix := s.ix + 1 }

/-- R298 `DEC IX`. -/
def execDecIX (s : State) : Result :=
  .next { s with ix := s.ix - 1 }

/-- R297 `INC IY`. -/
def execIncIY (s : State) : Result :=
  .next { s with iy := s.iy + 1 }

/-- R298 `DEC IY`. -/
def execDecIY (s : State) : Result :=
  .next { s with iy := s.iy - 1 }

end Sys2Proof.Machine
end

