-- ==== Sys2Proof/Machine/Arith8.lean ====
section
/-!
DEFINITION. Arith8: 8-bit arithmetic, logic, compare, increment and decrement (43_arith_logic_8bit.md R250 to R288).
-/
namespace Sys2Proof.Machine

/-! ## ADD -/

/-- R251 `ADD A,r`. -/
def execAddAR (rs : Reg) (s : State) : Result :=
  .next (s.aluA (add8 s.params.gen s.a (s.getR rs) false))

/-- R252 `ADD A,n`. -/
def execAddAN (n : Byte) (s : State) : Result :=
  .next (s.aluA (add8 s.params.gen s.a n false))

/-- R253 `ADD A,(HL)`. -/
def execAddAAtHL (s : State) : Result :=
  .next (s.aluA (add8 s.params.gen s.a (s.readByte s.hl) false))

/-- R254 `ADD A,(IX+d)`. -/
def execAddAAtIX (d : Byte) (s : State) : Result :=
  .next (s.aluA (add8 s.params.gen s.a (s.readByte (s.eaIX d)) false))

/-- R254 `ADD A,(IY+d)`. -/
def execAddAAtIY (d : Byte) (s : State) : Result :=
  .next (s.aluA (add8 s.params.gen s.a (s.readByte (s.eaIY d)) false))

/-! ## ADC -/

/-- R255 `ADC A,r`. -/
def execAdcAR (rs : Reg) (s : State) : Result :=
  .next (s.aluA (add8 s.params.gen s.a (s.getR rs) s.f.c))

/-- R256 `ADC A,n`. -/
def execAdcAN (n : Byte) (s : State) : Result :=
  .next (s.aluA (add8 s.params.gen s.a n s.f.c))

/-- R257 `ADC A,(HL)`. -/
def execAdcAAtHL (s : State) : Result :=
  .next (s.aluA (add8 s.params.gen s.a (s.readByte s.hl) s.f.c))

/-- R258 `ADC A,(IX+d)`. -/
def execAdcAAtIX (d : Byte) (s : State) : Result :=
  .next (s.aluA (add8 s.params.gen s.a (s.readByte (s.eaIX d)) s.f.c))

/-- R258 `ADC A,(IY+d)`. -/
def execAdcAAtIY (d : Byte) (s : State) : Result :=
  .next (s.aluA (add8 s.params.gen s.a (s.readByte (s.eaIY d)) s.f.c))

/-! ## SUB -/

/-- R259 `SUB r`. -/
def execSubR (rs : Reg) (s : State) : Result :=
  .next (s.aluA (sub8 s.params.gen s.a (s.getR rs) false))

/-- R260 `SUB n`. -/
def execSubN (n : Byte) (s : State) : Result :=
  .next (s.aluA (sub8 s.params.gen s.a n false))

/-- R261 `SUB (HL)`. -/
def execSubAtHL (s : State) : Result :=
  .next (s.aluA (sub8 s.params.gen s.a (s.readByte s.hl) false))

/-- R262 `SUB (IX+d)`. -/
def execSubAtIX (d : Byte) (s : State) : Result :=
  .next (s.aluA (sub8 s.params.gen s.a (s.readByte (s.eaIX d)) false))

/-- R262 `SUB (IY+d)`. -/
def execSubAtIY (d : Byte) (s : State) : Result :=
  .next (s.aluA (sub8 s.params.gen s.a (s.readByte (s.eaIY d)) false))

/-! ## SBC -/

/-- R263 `SBC A,r`. -/
def execSbcAR (rs : Reg) (s : State) : Result :=
  .next (s.aluA (sub8 s.params.gen s.a (s.getR rs) s.f.c))

/-- R264 `SBC A,n`. -/
def execSbcAN (n : Byte) (s : State) : Result :=
  .next (s.aluA (sub8 s.params.gen s.a n s.f.c))

/-- R265 `SBC A,(HL)`. -/
def execSbcAAtHL (s : State) : Result :=
  .next (s.aluA (sub8 s.params.gen s.a (s.readByte s.hl) s.f.c))

/-- R266 `SBC A,(IX+d)`. -/
def execSbcAAtIX (d : Byte) (s : State) : Result :=
  .next (s.aluA (sub8 s.params.gen s.a (s.readByte (s.eaIX d)) s.f.c))

/-- R266 `SBC A,(IY+d)`. -/
def execSbcAAtIY (d : Byte) (s : State) : Result :=
  .next (s.aluA (sub8 s.params.gen s.a (s.readByte (s.eaIY d)) s.f.c))

/-! ## AND -/

/-- R267 `AND r`. -/
def execAndR (rs : Reg) (s : State) : Result :=
  .next (s.aluA (logic8 .and s.a (s.getR rs)))

/-- R268 `AND n`. -/
def execAndN (n : Byte) (s : State) : Result :=
  .next (s.aluA (logic8 .and s.a n))

/-- R269 `AND (HL)`. -/
def execAndAtHL (s : State) : Result :=
  .next (s.aluA (logic8 .and s.a (s.readByte s.hl)))

/-- R270 `AND (IX+d)`. -/
def execAndAtIX (d : Byte) (s : State) : Result :=
  .next (s.aluA (logic8 .and s.a (s.readByte (s.eaIX d))))

/-- R270 `AND (IY+d)`. -/
def execAndAtIY (d : Byte) (s : State) : Result :=
  .next (s.aluA (logic8 .and s.a (s.readByte (s.eaIY d))))

/-! ## XOR -/

/-- R271 `XOR r`. -/
def execXorR (rs : Reg) (s : State) : Result :=
  .next (s.aluA (logic8 .xor s.a (s.getR rs)))

/-- R272 `XOR n`. -/
def execXorN (n : Byte) (s : State) : Result :=
  .next (s.aluA (logic8 .xor s.a n))

/-- R273 `XOR (HL)`. -/
def execXorAtHL (s : State) : Result :=
  .next (s.aluA (logic8 .xor s.a (s.readByte s.hl)))

/-- R274 `XOR (IX+d)`. -/
def execXorAtIX (d : Byte) (s : State) : Result :=
  .next (s.aluA (logic8 .xor s.a (s.readByte (s.eaIX d))))

/-- R274 `XOR (IY+d)`. -/
def execXorAtIY (d : Byte) (s : State) : Result :=
  .next (s.aluA (logic8 .xor s.a (s.readByte (s.eaIY d))))

/-! ## OR -/

/-- R275 `OR r`. -/
def execOrR (rs : Reg) (s : State) : Result :=
  .next (s.aluA (logic8 .or s.a (s.getR rs)))

/-- R276 `OR n`. -/
def execOrN (n : Byte) (s : State) : Result :=
  .next (s.aluA (logic8 .or s.a n))

/-- R277 `OR (HL)`. -/
def execOrAtHL (s : State) : Result :=
  .next (s.aluA (logic8 .or s.a (s.readByte s.hl)))

/-- R278 `OR (IX+d)`. -/
def execOrAtIX (d : Byte) (s : State) : Result :=
  .next (s.aluA (logic8 .or s.a (s.readByte (s.eaIX d))))

/-- R278 `OR (IY+d)`. -/
def execOrAtIY (d : Byte) (s : State) : Result :=
  .next (s.aluA (logic8 .or s.a (s.readByte (s.eaIY d))))

/-! ## CP -/

/-- R279 `CP r`. -/
def execCpR (rs : Reg) (s : State) : Result :=
  .next (s.aluFlags (sub8 s.params.gen s.a (s.getR rs) false))

/-- R280 `CP n`. -/
def execCpN (n : Byte) (s : State) : Result :=
  .next (s.aluFlags (sub8 s.params.gen s.a n false))

/-- R281 `CP (HL)`. -/
def execCpAtHL (s : State) : Result :=
  .next (s.aluFlags (sub8 s.params.gen s.a (s.readByte s.hl) false))

/-- R282 `CP (IX+d)`. -/
def execCpAtIX (d : Byte) (s : State) : Result :=
  .next (s.aluFlags (sub8 s.params.gen s.a (s.readByte (s.eaIX d)) false))

/-- R282 `CP (IY+d)`. -/
def execCpAtIY (d : Byte) (s : State) : Result :=
  .next (s.aluFlags (sub8 s.params.gen s.a (s.readByte (s.eaIY d)) false))

/-! ## INC and DEC -/

/-- R284, R285: the memory byte at an address read, incremented and written, with its flags. -/
def State.incMem (s : State) (addr : Word) : State :=
  (s.writeByte addr (inc8 s.params.gen (s.readByte addr)).res).incFlags (inc8 s.params.gen (s.readByte addr))

/-- R287, R288: the memory byte at an address read, decremented and written, with its flags. -/
def State.decMem (s : State) (addr : Word) : State :=
  (s.writeByte addr (dec8 s.params.gen (s.readByte addr)).res).incFlags (dec8 s.params.gen (s.readByte addr))

/-- R283 `INC r`. -/
def execIncR (rd : Reg) (s : State) : Result :=
  .next ((s.setR rd (inc8 s.params.gen (s.getR rd)).res).incFlags (inc8 s.params.gen (s.getR rd)))

/-- R284 `INC (HL)`. -/
def execIncAtHL (s : State) : Result :=
  .next (s.incMem s.hl)

/-- R285 `INC (IX+d)`. -/
def execIncAtIX (d : Byte) (s : State) : Result :=
  .next (s.incMem (s.eaIX d))

/-- R285 `INC (IY+d)`. -/
def execIncAtIY (d : Byte) (s : State) : Result :=
  .next (s.incMem (s.eaIY d))

/-- R286 `DEC r`. -/
def execDecR (rd : Reg) (s : State) : Result :=
  .next ((s.setR rd (dec8 s.params.gen (s.getR rd)).res).incFlags (dec8 s.params.gen (s.getR rd)))

/-- R287 `DEC (HL)`. -/
def execDecAtHL (s : State) : Result :=
  .next (s.decMem s.hl)

/-- R288 `DEC (IX+d)`. -/
def execDecAtIX (d : Byte) (s : State) : Result :=
  .next (s.decMem (s.eaIX d))

/-- R288 `DEC (IY+d)`. -/
def execDecAtIY (d : Byte) (s : State) : Result :=
  .next (s.decMem (s.eaIY d))

end Sys2Proof.Machine
end

