-- ==== Sys2Proof/Machine/Bit.lean ====
section
/-!
DEFINITION. Bit: BIT, SET and RES (45_shift_rotate_bit.md R330 to R338).
-/
namespace Sys2Proof.Machine

/-- R330 `BIT b,r`. -/
def execBitR (b : Fin 8) (rs : Reg) (s : State) : Result :=
  .next (s.bitFlags ((s.getR rs).getLsbD b.val))

/-- R331 `BIT b,(HL)`. -/
def execBitAtHL (b : Fin 8) (s : State) : Result :=
  .next (s.bitFlags ((s.readByte s.hl).getLsbD b.val))

/-- R332 `BIT b,(IX+d)`. -/
def execBitAtIX (b : Fin 8) (d : Byte) (s : State) : Result :=
  .next (s.bitFlags ((s.readByte (s.eaIX d)).getLsbD b.val))

/-- R332 `BIT b,(IY+d)`. -/
def execBitAtIY (b : Fin 8) (d : Byte) (s : State) : Result :=
  .next (s.bitFlags ((s.readByte (s.eaIY d)).getLsbD b.val))

/-- R333 `SET b,r`. -/
def execSetR (b : Fin 8) (rs : Reg) (s : State) : Result :=
  .next (s.setR rs (setBit b (s.getR rs)))

/-- R334 `SET b,(HL)`. -/
def execSetAtHL (b : Fin 8) (s : State) : Result :=
  .next (s.writeByte s.hl (setBit b (s.readByte s.hl)))

/-- R335 `SET b,(IX+d)`. -/
def execSetAtIX (b : Fin 8) (d : Byte) (s : State) : Result :=
  .next (s.writeByte (s.eaIX d) (setBit b (s.readByte (s.eaIX d))))

/-- R335 `SET b,(IY+d)`. -/
def execSetAtIY (b : Fin 8) (d : Byte) (s : State) : Result :=
  .next (s.writeByte (s.eaIY d) (setBit b (s.readByte (s.eaIY d))))

/-- R336 `RES b,r`. -/
def execResR (b : Fin 8) (rs : Reg) (s : State) : Result :=
  .next (s.setR rs (resetBit b (s.getR rs)))

/-- R337 `RES b,(HL)`. -/
def execResAtHL (b : Fin 8) (s : State) : Result :=
  .next (s.writeByte s.hl (resetBit b (s.readByte s.hl)))

/-- R338 `RES b,(IX+d)`. -/
def execResAtIX (b : Fin 8) (d : Byte) (s : State) : Result :=
  .next (s.writeByte (s.eaIX d) (resetBit b (s.readByte (s.eaIX d))))

/-- R338 `RES b,(IY+d)`. -/
def execResAtIY (b : Fin 8) (d : Byte) (s : State) : Result :=
  .next (s.writeByte (s.eaIY d) (resetBit b (s.readByte (s.eaIY d))))

end Sys2Proof.Machine
end

