-- ==== Sys2Proof/Machine/Block.lean ====
section
/-!
DEFINITION. Block: the block transfers and compares (42_block_transfer_compare.md R230 to R239). A repeating instruction is one
step (R231, log 12).
-/
namespace Sys2Proof.Machine

/-! ## Iterations -/

/-- R232, R233: one byte moved from (HL) to (DE), the pointers moved by `step`, BC counted down. -/
def State.transferOnce (step : Word) (s : State) : State :=
  (((s.writeByte s.de (s.readByte s.hl)).setHL (s.hl + step)).setDE (s.de + step)).setBC (s.bc - 1)

/-- R231, R234: the transfer loop ends with BC = 0. -/
def State.countedOut (s : State) : Bool := decide (s.bc = 0)

/-- R236, R237: the comparison of A with (HL). -/
def State.compareHL (s : State) : Alu8 := sub8 s.params.gen s.a (s.readByte s.hl) false

/-- R236: the Carry flag after a block compare, by `CPBLK_C`. -/
def State.compareCarry (s : State) : Bool :=
  match s.params.cpblkC with
  | .compare => s.compareHL.c
  | .unchanged => s.f.c

/-- R236, R237: one byte compared, HL moved by `step`, BC counted down, all six flags. -/
def State.compareOnce (step : Word) (s : State) : State :=
  ((s.setHL (s.hl + step)).setBC (s.bc - 1)).writeFlags 0
    { s.f with s := s.compareHL.s, z := s.compareHL.z, h := s.compareHL.h, pv := decide (s.bc - 1 ≠ 0), n := true,
               c := s.compareCarry }

/-- R238, R239: the compare loop ends with BC = 0 or a match. -/
def State.compareDone (s : State) : Bool := decide (s.bc = 0) || s.f.z

/-! ## The eight instructions -/

/-- R232 `LDI`. -/
def execLdi (s : State) : Result :=
  .next (s.transferOnce 1).transferFlags

/-- R233 `LDD`. -/
def execLdd (s : State) : Result :=
  .next (s.transferOnce (-1)).transferFlags

/-- R234 `LDIR`. BC is 0 at the end, so PV is 0. -/
def execLdir (s : State) : Result :=
  .next (repeatUntil (State.transferOnce 1) State.countedOut repeatFuelBC s).transferFlags

/-- R235 `LDDR`. BC is 0 at the end, so PV is 0. -/
def execLddr (s : State) : Result :=
  .next (repeatUntil (State.transferOnce (-1)) State.countedOut repeatFuelBC s).transferFlags

/-- R236 `CPI`. -/
def execCpi (s : State) : Result :=
  .next (s.compareOnce 1)

/-- R237 `CPD`. -/
def execCpd (s : State) : Result :=
  .next (s.compareOnce (-1))

/-- R238 `CPIR`. -/
def execCpir (s : State) : Result :=
  .next (repeatUntil (State.compareOnce 1) State.compareDone repeatFuelBC s)

/-- R239 `CPDR`. -/
def execCpdr (s : State) : Result :=
  .next (repeatUntil (State.compareOnce (-1)) State.compareDone repeatFuelBC s)

end Sys2Proof.Machine
end

