-- ==== Sys2Proof/Machine/Exchange.lean ====
section
/-!
DEFINITION. Exchange: the register and stack exchanges (47_exchange.md R380 to R386).
-/
namespace Sys2Proof.Machine

/-- R381 `EX DE,HL`. -/
def execExDEHL (s : State) : Result :=
  .next ((s.setDE s.hl).setHL s.de)

/-- R382 `EX AF,AF'`. F moves as data. -/
def execExAFAF (s : State) : Result :=
  .next { s with a := s.aAlt, f := s.fAlt, aAlt := s.a, fAlt := s.f }

/-- R383 `EXX`. -/
def execExx (s : State) : Result :=
  .next
    { s with b := s.bAlt, c := s.cAlt, d := s.dAlt, e := s.eAlt, h := s.hAlt, l := s.lAlt,
             bAlt := s.b, cAlt := s.c, dAlt := s.d, eAlt := s.e, hAlt := s.h, lAlt := s.l }

/-- R384 `EX (SP),HL`. Both bytes are read before either is written. -/
def execExAtSPHL (s : State) : Result :=
  s.afterWordAccess s.sp ((s.writeWord s.sp s.hl).setHL (s.readWord s.sp))

/-- R385 `EX (SP),IX`. -/
def execExAtSPIX (s : State) : Result :=
  s.afterWordAccess s.sp { s.writeWord s.sp s.ix with ix := s.readWord s.sp }

/-- R385 `EX (SP),IY`. -/
def execExAtSPIY (s : State) : Result :=
  s.afterWordAccess s.sp { s.writeWord s.sp s.iy with iy := s.readWord s.sp }

end Sys2Proof.Machine
end

