-- ==== Sys2Proof/Machine/Io.lean ====
section
/-!
DEFINITION. Io: input and output (49_io.md R410 to R423).
-/
namespace Sys2Proof.Machine

/-! ## Single transfers -/

/-- R412 `IN A,(n)`. No flag is written. -/
def execInAAtN (n : Byte) (s : State) : Result :=
  .next { s.recordIn n with a := s.portValue n }

/-- R413 `OUT (n),A`. -/
def execOutAtNA (n : Byte) (s : State) : Result :=
  .next (s.recordOut n s.a)

/-- R414 `IN r,(C)`. -/
def execInRAtC (rd : Reg) (s : State) : Result :=
  .next (((s.recordIn s.c).setR rd (s.portValue s.c)).byteFlags (s.portValue s.c))

/-- R415 `OUT (C),r`. -/
def execOutAtCR (rs : Reg) (s : State) : Result :=
  .next (s.recordOut s.c (s.getR rs))

/-! ## Block transfers -/

/-- R416, R417: one byte from port C to (HL), HL moved by `step`, B counted down. -/
def State.inputOnce (step : Word) (s : State) : State :=
  { ((s.recordIn s.c).writeByte s.hl (s.portValue s.c)).setHL (s.hl + step) with b := s.b - 1 }

/-- R420, R421: one byte from (HL) to port C, HL moved by `step`, B counted down. -/
def State.outputOnce (step : Word) (s : State) : State :=
  { (s.recordOut s.c (s.readByte s.hl)).setHL (s.hl + step) with b := s.b - 1 }

/-- R418, R422: the block I/O loop ends with B = 0. -/
def State.portsDone (s : State) : Bool := decide (s.b = 0)

/-- R416 `INI`. -/
def execIni (s : State) : Result :=
  .next (s.inputOnce 1).blockIoFlags

/-- R417 `IND`. -/
def execInd (s : State) : Result :=
  .next (s.inputOnce (-1)).blockIoFlags

/-- R418 `INIR`. B is 0 at the end, so Z is 1. -/
def execInir (s : State) : Result :=
  .next (repeatUntil (State.inputOnce 1) State.portsDone repeatFuelB s).blockIoFlags

/-- R419 `INDR`. B is 0 at the end, so Z is 1. -/
def execIndr (s : State) : Result :=
  .next (repeatUntil (State.inputOnce (-1)) State.portsDone repeatFuelB s).blockIoFlags

/-- R420 `OUTI`. -/
def execOuti (s : State) : Result :=
  .next (s.outputOnce 1).blockIoFlags

/-- R421 `OUTD`. -/
def execOutd (s : State) : Result :=
  .next (s.outputOnce (-1)).blockIoFlags

/-- R422 `OTIR`. B is 0 at the end, so Z is 1. -/
def execOtir (s : State) : Result :=
  .next (repeatUntil (State.outputOnce 1) State.portsDone repeatFuelB s).blockIoFlags

/-- R423 `OTDR`. B is 0 at the end, so Z is 1. -/
def execOtdr (s : State) : Result :=
  .next (repeatUntil (State.outputOnce (-1)) State.portsDone repeatFuelB s).blockIoFlags

end Sys2Proof.Machine
end

