-- ==== Sys2Proof/Machine/Jump.lean ====
section
/-!
DEFINITION. Jump: jumps, calls, returns and restarts (46_jump_call_return.md R350 to R371). PC stands after the instruction
when a meaning starts (00_scope.md R17).
-/
namespace Sys2Proof.Machine

/-- R363: `PC <- pop16()`. -/
def State.popPC (s : State) : State := { s.popSP with pc := s.popValue }

/-- R361: `push16(PC)`, then `PC <- target`. -/
def State.callTo (s : State) (target : Word) : State := { s.push16 s.pc with pc := target }

/-- R368: the restart target `8 * t`. -/
def restartTarget (t : Fin 8) : Word := BitVec.ofNat 16 (8 * t.val)

/-! ## Jumps -/

/-- R352 `JP nn`. -/
def execJp (nn : Word) (s : State) : Result :=
  .next { s with pc := nn }

/-- R353 `JP cc,nn`. -/
def execJpCC (cc : Cond) (nn : Word) (s : State) : Result :=
  .next (match s.cond cc with
    | true => { s with pc := nn }
    | false => s)

/-- R354 `JP (HL)`. No memory is read. -/
def execJpHL (s : State) : Result :=
  .next { s with pc := s.hl }

/-- R355 `JP (IX)`. -/
def execJpIX (s : State) : Result :=
  .next { s with pc := s.ix }

/-- R355 `JP (IY)`. -/
def execJpIY (s : State) : Result :=
  .next { s with pc := s.iy }

/-- R356 `JR e`. -/
def execJr (e : Byte) (s : State) : Result :=
  .next { s with pc := s.relTarget e }

/-- R357 `JR cc,e`. -/
def execJrCC (cc : CondJR) (e : Byte) (s : State) : Result :=
  .next (match s.condJR cc with
    | true => { s with pc := s.relTarget e }
    | false => s)

/-- R358 `DJNZ e`. No flag is written. -/
def execDjnz (e : Byte) (s : State) : Result :=
  .next (match decide (s.b - 1 = 0) with
    | true => { s with b := s.b - 1 }
    | false => { s with b := s.b - 1, pc := s.relTarget e })

/-! ## Calls and returns -/

/-- R361 `CALL nn`. -/
def execCall (nn : Word) (s : State) : Result :=
  s.afterWordAccess (s.sp - 2) (s.callTo nn)

/-- R362 `CALL cc,nn`. -/
def execCallCC (cc : Cond) (nn : Word) (s : State) : Result :=
  match s.cond cc with
  | true => s.afterWordAccess (s.sp - 2) (s.callTo nn)
  | false => .next s

/-- R363 `RET`. -/
def execRet (s : State) : Result :=
  s.afterWordAccess s.sp s.popPC

/-- R364 `RET cc`. -/
def execRetCC (cc : Cond) (s : State) : Result :=
  match s.cond cc with
  | true => s.afterWordAccess s.sp s.popPC
  | false => .next s

/-- R368 `RST p`. -/
def execRst (t : Fin 8) (s : State) : Result :=
  s.afterWordAccess (s.sp - 2) (s.callTo (restartTarget t))

/-- R369 `RETI`. A plain return: there is no interrupt state (R444). -/
def execReti (s : State) : Result :=
  s.afterWordAccess s.sp s.popPC

/-- R370 `RETN`. A plain return: there is no interrupt state (R444). -/
def execRetn (s : State) : Result :=
  s.afterWordAccess s.sp s.popPC

end Sys2Proof.Machine
end

