-- ==== Sys2Proof/Machine/Load.lean ====
section
/-!
DEFINITION. Load: the load, store, push and pop instructions (41_load_store.md R170 to R210). Each meaning starts with PC
after the instruction and R advanced by its length (00_scope.md R13, R17).
-/
namespace Sys2Proof.Machine

/-! ## 8-bit loads -/

/-- R171 `LD r,r'`. -/
def execLdRR (rd : Reg) (rs : Reg) (s : State) : Result :=
  .next (s.setR rd (s.getR rs))

/-- R172 `LD r,n`. -/
def execLdRN (rd : Reg) (n : Byte) (s : State) : Result :=
  .next (s.setR rd n)

/-- R173 `LD r,(HL)`. -/
def execLdRAtHL (rd : Reg) (s : State) : Result :=
  .next (s.setR rd (s.readByte s.hl))

/-- R174 `LD (HL),r`. -/
def execLdAtHLR (rs : Reg) (s : State) : Result :=
  .next (s.writeByte s.hl (s.getR rs))

/-- R175 `LD (HL),n`. -/
def execLdAtHLN (n : Byte) (s : State) : Result :=
  .next (s.writeByte s.hl n)

/-- R177 `LD r,(IX+d)`. -/
def execLdRAtIX (rd : Reg) (d : Byte) (s : State) : Result :=
  .next (s.setR rd (s.readByte (s.eaIX d)))

/-- R178 `LD (IX+d),r`. -/
def execLdAtIXR (d : Byte) (rs : Reg) (s : State) : Result :=
  .next (s.writeByte (s.eaIX d) (s.getR rs))

/-- R179 `LD (IX+d),n`. -/
def execLdAtIXN (d : Byte) (n : Byte) (s : State) : Result :=
  .next (s.writeByte (s.eaIX d) n)

/-- R177 `LD r,(IY+d)`. -/
def execLdRAtIY (rd : Reg) (d : Byte) (s : State) : Result :=
  .next (s.setR rd (s.readByte (s.eaIY d)))

/-- R178 `LD (IY+d),r`. -/
def execLdAtIYR (d : Byte) (rs : Reg) (s : State) : Result :=
  .next (s.writeByte (s.eaIY d) (s.getR rs))

/-- R179 `LD (IY+d),n`. -/
def execLdAtIYN (d : Byte) (n : Byte) (s : State) : Result :=
  .next (s.writeByte (s.eaIY d) n)

/-- R180 `LD A,(BC)`. -/
def execLdAAtBC (s : State) : Result :=
  .next { s with a := s.readByte s.bc }

/-- R181 `LD A,(DE)`. -/
def execLdAAtDE (s : State) : Result :=
  .next { s with a := s.readByte s.de }

/-- R182 `LD (BC),A`. -/
def execLdAtBCA (s : State) : Result :=
  .next (s.writeByte s.bc s.a)

/-- R183 `LD (DE),A`. -/
def execLdAtDEA (s : State) : Result :=
  .next (s.writeByte s.de s.a)

/-- R184 `LD A,(nn)`. -/
def execLdAAtNN (nn : Word) (s : State) : Result :=
  .next { s with a := s.readByte nn }

/-- R185 `LD (nn),A`. -/
def execLdAtNNA (nn : Word) (s : State) : Result :=
  .next (s.writeByte nn s.a)

/-! ## 16-bit loads -/

/-- R186 `LD ss,nn`. -/
def execLdSSNN (ss : RegSS) (nn : Word) (s : State) : Result :=
  .next (s.setSS ss nn)

/-- R187 `LD IX,nn`. -/
def execLdIXNN (nn : Word) (s : State) : Result :=
  .next { s with ix := nn }

/-- R187 `LD IY,nn`. -/
def execLdIYNN (nn : Word) (s : State) : Result :=
  .next { s with iy := nn }

/-- R188 `LD HL,(nn)`. -/
def execLdHLAtNN (nn : Word) (s : State) : Result :=
  s.afterWordAccess nn (s.setHL (s.readWord nn))

/-- R189 `LD (nn),HL`. -/
def execLdAtNNHL (nn : Word) (s : State) : Result :=
  s.afterWordAccess nn (s.writeWord nn s.hl)

/-- R190 `LD ss,(nn)`. -/
def execLdSSAtNN (ss : RegSS) (nn : Word) (s : State) : Result :=
  s.afterWordAccess nn (s.setSS ss (s.readWord nn))

/-- R191 `LD (nn),ss`. -/
def execLdAtNNSS (nn : Word) (ss : RegSS) (s : State) : Result :=
  s.afterWordAccess nn (s.writeWord nn (s.getSS ss))

/-- R192 `LD IX,(nn)`. -/
def execLdIXAtNN (nn : Word) (s : State) : Result :=
  s.afterWordAccess nn { s with ix := s.readWord nn }

/-- R193 `LD (nn),IX`. -/
def execLdAtNNIX (nn : Word) (s : State) : Result :=
  s.afterWordAccess nn (s.writeWord nn s.ix)

/-- R192 `LD IY,(nn)`. -/
def execLdIYAtNN (nn : Word) (s : State) : Result :=
  s.afterWordAccess nn { s with iy := s.readWord nn }

/-- R193 `LD (nn),IY`. -/
def execLdAtNNIY (nn : Word) (s : State) : Result :=
  s.afterWordAccess nn (s.writeWord nn s.iy)

/-- R194 `LD SP,HL`. -/
def execLdSPHL (s : State) : Result :=
  .next { s with sp := s.hl }

/-- R195 `LD SP,IX`. -/
def execLdSPIX (s : State) : Result :=
  .next { s with sp := s.ix }

/-- R195 `LD SP,IY`. -/
def execLdSPIY (s : State) : Result :=
  .next { s with sp := s.iy }

/-! ## I and R -/

/-- R202 `LD I,A`. -/
def execLdIA (s : State) : Result :=
  .next { s with i := s.a }

/-- R203 `LD A,I`. -/
def execLdAI (s : State) : Result :=
  .next ({ s with a := s.i }.loadedFlags s.i)

/-- R204 `LD R,A`. R already counts this instruction's two bytes (R36). -/
def execLdRA (s : State) : Result :=
  .next { s with r := s.a }

/-- R205, R36: the byte `LD A,R` loads, by `R_READ` (log 20). -/
def State.refreshRead (s : State) : Byte :=
  match s.params.rRead with
  | .perByte => s.r
  | .any => s.freshByte 3

/-- R205 `LD A,R`. -/
def execLdAR (s : State) : Result :=
  .next ({ s with a := s.refreshRead }.loadedFlags s.refreshRead)

/-! ## Push and pop -/

/-- R206 `PUSH qq`. -/
def execPushQQ (qq : RegQQ) (s : State) : Result :=
  s.afterWordAccess (s.sp - 2) (s.push16 (s.getQQ qq))

/-- R207 `POP qq`. -/
def execPopQQ (qq : RegQQ) (s : State) : Result :=
  s.afterWordAccess s.sp (s.popSP.setQQ qq s.popValue)

/-- R208 `PUSH IX`. -/
def execPushIX (s : State) : Result :=
  s.afterWordAccess (s.sp - 2) (s.push16 s.ix)

/-- R209 `POP IX`. -/
def execPopIX (s : State) : Result :=
  s.afterWordAccess s.sp { s.popSP with ix := s.popValue }

/-- R208 `PUSH IY`. -/
def execPushIY (s : State) : Result :=
  s.afterWordAccess (s.sp - 2) (s.push16 s.iy)

/-- R209 `POP IY`. -/
def execPopIY (s : State) : Result :=
  s.afterWordAccess s.sp { s.popSP with iy := s.popValue }

end Sys2Proof.Machine
end

