-- ==== Sys2Proof/Machine/Misc.lean ====
section
/-!
DEFINITION. Misc: accumulator, flag and control instructions (48_misc_control.md R390 to R402).
-/
namespace Sys2Proof.Machine

/-! ## Accumulator and flags -/

/-- R391 `CPL`. -/
def execCpl (s : State) : Result :=
  .next ({ s with a := s.a ^^^ 0xFF }.writeFlags 0 { s.f with h := true, n := true })

/-- R392 `CCF`. -/
def execCcf (s : State) : Result :=
  .next (s.writeFlags 0 { s.f with h := s.f.c, c := !s.f.c, n := false })

/-- R393 `SCF`. -/
def execScf (s : State) : Result :=
  .next (s.writeFlags 0 { s.f with c := true, h := false, n := false })

/-- R394 `NEG`. PV is the signed overflow, whatever `GEN` (R144). -/
def execNeg (s : State) : Result :=
  .next (s.aluA (sub8 .z80 0 s.a false))

/-- R395: the corrector on A and the flags before. -/
def State.daaResult (s : State) : Daa := daa s.a s.f.n s.f.c s.f.h

/-- R395 `DAA`. N is unchanged. -/
def execDaa (s : State) : Result :=
  .next ({ s with a := s.daaResult.res }.writeFlags 0
    { s.f with s := s.daaResult.s, z := s.daaResult.z, h := s.daaResult.h, pv := s.daaResult.pv, c := s.daaResult.c })

/-! ## CPU control -/

/-- R396 `HALT`. The run ends and nothing else changes. -/
def execHalt (s : State) : Result :=
  .next { s with status := .idle }

/-- R397 `NOP`. -/
def execNop (s : State) : Result :=
  .next s

/-- R398 `DI`. There is no interrupt state to change (R46, R440). -/
def execDi (s : State) : Result :=
  .next s

/-- R399 `EI`. There is no interrupt state to change (R46, R440). -/
def execEi (s : State) : Result :=
  .next s

/-- R400 `IM 0`. There is no interrupt-mode state (R46). -/
def execIm0 (s : State) : Result :=
  .next s

/-- R401 `IM 1`. There is no interrupt-mode state (R46). -/
def execIm1 (s : State) : Result :=
  .next s

/-- R402 `IM 2`. There is no interrupt-mode state (R46). -/
def execIm2 (s : State) : Result :=
  .next s

end Sys2Proof.Machine
end

