-- ==== Sys2Proof/Machine/Rotate.lean ====
section
/-!
DEFINITION. Rotate: rotates, shifts and digit rotates (45_shift_rotate_bit.md R300 to R328).
-/
namespace Sys2Proof.Machine

/-! ## Accumulator rotates -/

/-- R301 `RLCA`. -/
def execRlca (s : State) : Result :=
  .next (s.rotateA .rlc)

/-- R302 `RLA`. -/
def execRla (s : State) : Result :=
  .next (s.rotateA .rl)

/-- R303 `RRCA`. -/
def execRrca (s : State) : Result :=
  .next (s.rotateA .rrc)

/-- R304 `RRA`. -/
def execRra (s : State) : Result :=
  .next (s.rotateA .rr)

/-! ## Digit rotates -/

/-- R305, R306: the digit rotates, from the new memory byte and the new A. -/
def State.digitRotate (s : State) (newMem newA : Byte) : State :=
  { s.writeByte s.hl newMem with a := newA }.byteFlags newA

/-- R305 `RRD`. -/
def execRrd (s : State) : Result :=
  .next (s.digitRotate (joinNibbles (lowNibble s.a) (highNibble (s.readByte s.hl)))
    (joinNibbles (highNibble s.a) (lowNibble (s.readByte s.hl))))

/-- R306 `RLD`. -/
def execRld (s : State) : Result :=
  .next (s.digitRotate (joinNibbles (lowNibble (s.readByte s.hl)) (lowNibble s.a))
    (joinNibbles (highNibble s.a) (highNibble (s.readByte s.hl))))

/-! ## CB-table rotates and shifts -/

/-- R308: a register rotated or shifted, with its flags. -/
def State.rotateR (s : State) (kind : RotKind) (r : Reg) : State :=
  (s.setR r (rot8 kind (s.getR r) s.f.c).res).rotFlags (rot8 kind (s.getR r) s.f.c)

/-- R309, R310: the memory byte at an address read, rotated or shifted, and written, with its flags. -/
def State.rotateMem (s : State) (kind : RotKind) (addr : Word) : State :=
  (s.writeByte addr (rot8 kind (s.readByte addr) s.f.c).res).rotFlags (rot8 kind (s.readByte addr) s.f.c)

/-- R308 `RLC r`. -/
def execRlcR (rs : Reg) (s : State) : Result :=
  .next (s.rotateR .rlc rs)

/-- R309 `RLC (HL)`. -/
def execRlcAtHL (s : State) : Result :=
  .next (s.rotateMem .rlc s.hl)

/-- R310 `RLC (IX+d)`. -/
def execRlcAtIX (d : Byte) (s : State) : Result :=
  .next (s.rotateMem .rlc (s.eaIX d))

/-- R310 `RLC (IY+d)`. -/
def execRlcAtIY (d : Byte) (s : State) : Result :=
  .next (s.rotateMem .rlc (s.eaIY d))

/-- R311 `RRC r`. -/
def execRrcR (rs : Reg) (s : State) : Result :=
  .next (s.rotateR .rrc rs)

/-- R312 `RRC (HL)`. -/
def execRrcAtHL (s : State) : Result :=
  .next (s.rotateMem .rrc s.hl)

/-- R313 `RRC (IX+d)`. -/
def execRrcAtIX (d : Byte) (s : State) : Result :=
  .next (s.rotateMem .rrc (s.eaIX d))

/-- R313 `RRC (IY+d)`. -/
def execRrcAtIY (d : Byte) (s : State) : Result :=
  .next (s.rotateMem .rrc (s.eaIY d))

/-- R314 `RL r`. -/
def execRlR (rs : Reg) (s : State) : Result :=
  .next (s.rotateR .rl rs)

/-- R315 `RL (HL)`. -/
def execRlAtHL (s : State) : Result :=
  .next (s.rotateMem .rl s.hl)

/-- R316 `RL (IX+d)`. -/
def execRlAtIX (d : Byte) (s : State) : Result :=
  .next (s.rotateMem .rl (s.eaIX d))

/-- R316 `RL (IY+d)`. -/
def execRlAtIY (d : Byte) (s : State) : Result :=
  .next (s.rotateMem .rl (s.eaIY d))

/-- R317 `RR r`. -/
def execRrR (rs : Reg) (s : State) : Result :=
  .next (s.rotateR .rr rs)

/-- R318 `RR (HL)`. -/
def execRrAtHL (s : State) : Result :=
  .next (s.rotateMem .rr s.hl)

/-- R319 `RR (IX+d)`. -/
def execRrAtIX (d : Byte) (s : State) : Result :=
  .next (s.rotateMem .rr (s.eaIX d))

/-- R319 `RR (IY+d)`. -/
def execRrAtIY (d : Byte) (s : State) : Result :=
  .next (s.rotateMem .rr (s.eaIY d))

/-- R320 `SLA r`. -/
def execSlaR (rs : Reg) (s : State) : Result :=
  .next (s.rotateR .sla rs)

/-- R321 `SLA (HL)`. -/
def execSlaAtHL (s : State) : Result :=
  .next (s.rotateMem .sla s.hl)

/-- R322 `SLA (IX+d)`. -/
def execSlaAtIX (d : Byte) (s : State) : Result :=
  .next (s.rotateMem .sla (s.eaIX d))

/-- R322 `SLA (IY+d)`. -/
def execSlaAtIY (d : Byte) (s : State) : Result :=
  .next (s.rotateMem .sla (s.eaIY d))

/-- R323 `SRA r`. -/
def execSraR (rs : Reg) (s : State) : Result :=
  .next (s.rotateR .sra rs)

/-- R324 `SRA (HL)`. -/
def execSraAtHL (s : State) : Result :=
  .next (s.rotateMem .sra s.hl)

/-- R325 `SRA (IX+d)`. -/
def execSraAtIX (d : Byte) (s : State) : Result :=
  .next (s.rotateMem .sra (s.eaIX d))

/-- R325 `SRA (IY+d)`. -/
def execSraAtIY (d : Byte) (s : State) : Result :=
  .next (s.rotateMem .sra (s.eaIY d))

/-- R326 `SRL r`. -/
def execSrlR (rs : Reg) (s : State) : Result :=
  .next (s.rotateR .srl rs)

/-- R327 `SRL (HL)`. -/
def execSrlAtHL (s : State) : Result :=
  .next (s.rotateMem .srl s.hl)

/-- R328 `SRL (IX+d)`. -/
def execSrlAtIX (d : Byte) (s : State) : Result :=
  .next (s.rotateMem .srl (s.eaIX d))

/-- R328 `SRL (IY+d)`. -/
def execSrlAtIY (d : Byte) (s : State) : Result :=
  .next (s.rotateMem .srl (s.eaIY d))

end Sys2Proof.Machine
end

