-- ==== Sys2Proof/Machine/Dispatch.lean ====
section
/-!
DEFINITION. Dispatch: the one match from instructions to meanings, one arm per constructor of `Instr`.
-/
namespace Sys2Proof.Machine

/-- The execute phase of an instruction, PC standing after it (00_scope.md R17). -/
def exec (i : Instr) (s : State) : Host.Outcome State Fault Refusal :=
  match i with
  | .ldRR rd rs => Sys2Proof.Machine.execLdRR rd rs s
  | .ldRN rd n => Sys2Proof.Machine.execLdRN rd n s
  | .ldRAtHL rd => Sys2Proof.Machine.execLdRAtHL rd s
  | .ldAtHLR rs => Sys2Proof.Machine.execLdAtHLR rs s
  | .ldAtHLN n => Sys2Proof.Machine.execLdAtHLN n s
  | .ldAAtBC => Sys2Proof.Machine.execLdAAtBC s
  | .ldAAtDE => Sys2Proof.Machine.execLdAAtDE s
  | .ldAtBCA => Sys2Proof.Machine.execLdAtBCA s
  | .ldAtDEA => Sys2Proof.Machine.execLdAtDEA s
  | .ldAAtNN nn => Sys2Proof.Machine.execLdAAtNN nn s
  | .ldAtNNA nn => Sys2Proof.Machine.execLdAtNNA nn s
  | .ldSSNN ss nn => Sys2Proof.Machine.execLdSSNN ss nn s
  | .ldHLAtNN nn => Sys2Proof.Machine.execLdHLAtNN nn s
  | .ldAtNNHL nn => Sys2Proof.Machine.execLdAtNNHL nn s
  | .ldSPHL => Sys2Proof.Machine.execLdSPHL s
  | .pushQQ qq => Sys2Proof.Machine.execPushQQ qq s
  | .popQQ qq => Sys2Proof.Machine.execPopQQ qq s
  | .addAR rs => Sys2Proof.Machine.execAddAR rs s
  | .addAN n => Sys2Proof.Machine.execAddAN n s
  | .addAAtHL => Sys2Proof.Machine.execAddAAtHL s
  | .adcAR rs => Sys2Proof.Machine.execAdcAR rs s
  | .adcAN n => Sys2Proof.Machine.execAdcAN n s
  | .adcAAtHL => Sys2Proof.Machine.execAdcAAtHL s
  | .subR rs => Sys2Proof.Machine.execSubR rs s
  | .subN n => Sys2Proof.Machine.execSubN n s
  | .subAtHL => Sys2Proof.Machine.execSubAtHL s
  | .sbcAR rs => Sys2Proof.Machine.execSbcAR rs s
  | .sbcAN n => Sys2Proof.Machine.execSbcAN n s
  | .sbcAAtHL => Sys2Proof.Machine.execSbcAAtHL s
  | .andR rs => Sys2Proof.Machine.execAndR rs s
  | .andN n => Sys2Proof.Machine.execAndN n s
  | .andAtHL => Sys2Proof.Machine.execAndAtHL s
  | .xorR rs => Sys2Proof.Machine.execXorR rs s
  | .xorN n => Sys2Proof.Machine.execXorN n s
  | .xorAtHL => Sys2Proof.Machine.execXorAtHL s
  | .orR rs => Sys2Proof.Machine.execOrR rs s
  | .orN n => Sys2Proof.Machine.execOrN n s
  | .orAtHL => Sys2Proof.Machine.execOrAtHL s
  | .cpR rs => Sys2Proof.Machine.execCpR rs s
  | .cpN n => Sys2Proof.Machine.execCpN n s
  | .cpAtHL => Sys2Proof.Machine.execCpAtHL s
  | .incR rd => Sys2Proof.Machine.execIncR rd s
  | .incAtHL => Sys2Proof.Machine.execIncAtHL s
  | .decR rd => Sys2Proof.Machine.execDecR rd s
  | .decAtHL => Sys2Proof.Machine.execDecAtHL s
  | .addHLSS ss => Sys2Proof.Machine.execAddHLSS ss s
  | .incSS ss => Sys2Proof.Machine.execIncSS ss s
  | .decSS ss => Sys2Proof.Machine.execDecSS ss s
  | .rlca => Sys2Proof.Machine.execRlca s
  | .rrca => Sys2Proof.Machine.execRrca s
  | .rla => Sys2Proof.Machine.execRla s
  | .rra => Sys2Proof.Machine.execRra s
  | .daa => Sys2Proof.Machine.execDaa s
  | .cpl => Sys2Proof.Machine.execCpl s
  | .scf => Sys2Proof.Machine.execScf s
  | .ccf => Sys2Proof.Machine.execCcf s
  | .halt => Sys2Proof.Machine.execHalt s
  | .nop => Sys2Proof.Machine.execNop s
  | .exAFAF => Sys2Proof.Machine.execExAFAF s
  | .djnz e => Sys2Proof.Machine.execDjnz e s
  | .jr e => Sys2Proof.Machine.execJr e s
  | .jrCC cc e => Sys2Proof.Machine.execJrCC cc e s
  | .jp nn => Sys2Proof.Machine.execJp nn s
  | .jpCC cc nn => Sys2Proof.Machine.execJpCC cc nn s
  | .jpHL => Sys2Proof.Machine.execJpHL s
  | .call nn => Sys2Proof.Machine.execCall nn s
  | .callCC cc nn => Sys2Proof.Machine.execCallCC cc nn s
  | .ret => Sys2Proof.Machine.execRet s
  | .retCC cc => Sys2Proof.Machine.execRetCC cc s
  | .rst t => Sys2Proof.Machine.execRst t s
  | .outAtNA n => Sys2Proof.Machine.execOutAtNA n s
  | .inAAtN n => Sys2Proof.Machine.execInAAtN n s
  | .exx => Sys2Proof.Machine.execExx s
  | .exAtSPHL => Sys2Proof.Machine.execExAtSPHL s
  | .exDEHL => Sys2Proof.Machine.execExDEHL s
  | .di => Sys2Proof.Machine.execDi s
  | .ei => Sys2Proof.Machine.execEi s
  | .rlcR rs => Sys2Proof.Machine.execRlcR rs s
  | .rlcAtHL => Sys2Proof.Machine.execRlcAtHL s
  | .rrcR rs => Sys2Proof.Machine.execRrcR rs s
  | .rrcAtHL => Sys2Proof.Machine.execRrcAtHL s
  | .rlR rs => Sys2Proof.Machine.execRlR rs s
  | .rlAtHL => Sys2Proof.Machine.execRlAtHL s
  | .rrR rs => Sys2Proof.Machine.execRrR rs s
  | .rrAtHL => Sys2Proof.Machine.execRrAtHL s
  | .slaR rs => Sys2Proof.Machine.execSlaR rs s
  | .slaAtHL => Sys2Proof.Machine.execSlaAtHL s
  | .sraR rs => Sys2Proof.Machine.execSraR rs s
  | .sraAtHL => Sys2Proof.Machine.execSraAtHL s
  | .srlR rs => Sys2Proof.Machine.execSrlR rs s
  | .srlAtHL => Sys2Proof.Machine.execSrlAtHL s
  | .bitR b rs => Sys2Proof.Machine.execBitR b rs s
  | .bitAtHL b => Sys2Proof.Machine.execBitAtHL b s
  | .resR b rs => Sys2Proof.Machine.execResR b rs s
  | .resAtHL b => Sys2Proof.Machine.execResAtHL b s
  | .setR b rs => Sys2Proof.Machine.execSetR b rs s
  | .setAtHL b => Sys2Proof.Machine.execSetAtHL b s
  | .inRAtC rd => Sys2Proof.Machine.execInRAtC rd s
  | .outAtCR rs => Sys2Proof.Machine.execOutAtCR rs s
  | .sbcHLSS ss => Sys2Proof.Machine.execSbcHLSS ss s
  | .adcHLSS ss => Sys2Proof.Machine.execAdcHLSS ss s
  | .ldAtNNSS nn ss => Sys2Proof.Machine.execLdAtNNSS nn ss s
  | .ldSSAtNN ss nn => Sys2Proof.Machine.execLdSSAtNN ss nn s
  | .neg => Sys2Proof.Machine.execNeg s
  | .retn => Sys2Proof.Machine.execRetn s
  | .reti => Sys2Proof.Machine.execReti s
  | .im0 => Sys2Proof.Machine.execIm0 s
  | .im1 => Sys2Proof.Machine.execIm1 s
  | .im2 => Sys2Proof.Machine.execIm2 s
  | .ldIA => Sys2Proof.Machine.execLdIA s
  | .ldRA => Sys2Proof.Machine.execLdRA s
  | .ldAI => Sys2Proof.Machine.execLdAI s
  | .ldAR => Sys2Proof.Machine.execLdAR s
  | .rrd => Sys2Proof.Machine.execRrd s
  | .rld => Sys2Proof.Machine.execRld s
  | .ldi => Sys2Proof.Machine.execLdi s
  | .ldd => Sys2Proof.Machine.execLdd s
  | .ldir => Sys2Proof.Machine.execLdir s
  | .lddr => Sys2Proof.Machine.execLddr s
  | .cpi => Sys2Proof.Machine.execCpi s
  | .cpd => Sys2Proof.Machine.execCpd s
  | .cpir => Sys2Proof.Machine.execCpir s
  | .cpdr => Sys2Proof.Machine.execCpdr s
  | .ini => Sys2Proof.Machine.execIni s
  | .ind => Sys2Proof.Machine.execInd s
  | .inir => Sys2Proof.Machine.execInir s
  | .indr => Sys2Proof.Machine.execIndr s
  | .outi => Sys2Proof.Machine.execOuti s
  | .outd => Sys2Proof.Machine.execOutd s
  | .otir => Sys2Proof.Machine.execOtir s
  | .otdr => Sys2Proof.Machine.execOtdr s
  | .addIXPP pp => Sys2Proof.Machine.execAddIXPP pp s
  | .ldIXNN nn => Sys2Proof.Machine.execLdIXNN nn s
  | .ldAtNNIX nn => Sys2Proof.Machine.execLdAtNNIX nn s
  | .ldIXAtNN nn => Sys2Proof.Machine.execLdIXAtNN nn s
  | .incIX => Sys2Proof.Machine.execIncIX s
  | .decIX => Sys2Proof.Machine.execDecIX s
  | .incAtIX d => Sys2Proof.Machine.execIncAtIX d s
  | .decAtIX d => Sys2Proof.Machine.execDecAtIX d s
  | .ldAtIXN d n => Sys2Proof.Machine.execLdAtIXN d n s
  | .ldRAtIX rd d => Sys2Proof.Machine.execLdRAtIX rd d s
  | .ldAtIXR d rs => Sys2Proof.Machine.execLdAtIXR d rs s
  | .addAAtIX d => Sys2Proof.Machine.execAddAAtIX d s
  | .adcAAtIX d => Sys2Proof.Machine.execAdcAAtIX d s
  | .subAtIX d => Sys2Proof.Machine.execSubAtIX d s
  | .sbcAAtIX d => Sys2Proof.Machine.execSbcAAtIX d s
  | .andAtIX d => Sys2Proof.Machine.execAndAtIX d s
  | .xorAtIX d => Sys2Proof.Machine.execXorAtIX d s
  | .orAtIX d => Sys2Proof.Machine.execOrAtIX d s
  | .cpAtIX d => Sys2Proof.Machine.execCpAtIX d s
  | .popIX => Sys2Proof.Machine.execPopIX s
  | .exAtSPIX => Sys2Proof.Machine.execExAtSPIX s
  | .pushIX => Sys2Proof.Machine.execPushIX s
  | .jpIX => Sys2Proof.Machine.execJpIX s
  | .ldSPIX => Sys2Proof.Machine.execLdSPIX s
  | .rlcAtIX d => Sys2Proof.Machine.execRlcAtIX d s
  | .rrcAtIX d => Sys2Proof.Machine.execRrcAtIX d s
  | .rlAtIX d => Sys2Proof.Machine.execRlAtIX d s
  | .rrAtIX d => Sys2Proof.Machine.execRrAtIX d s
  | .slaAtIX d => Sys2Proof.Machine.execSlaAtIX d s
  | .sraAtIX d => Sys2Proof.Machine.execSraAtIX d s
  | .srlAtIX d => Sys2Proof.Machine.execSrlAtIX d s
  | .bitAtIX b d => Sys2Proof.Machine.execBitAtIX b d s
  | .resAtIX b d => Sys2Proof.Machine.execResAtIX b d s
  | .setAtIX b d => Sys2Proof.Machine.execSetAtIX b d s
  | .addIYRR rr => Sys2Proof.Machine.execAddIYRR rr s
  | .ldIYNN nn => Sys2Proof.Machine.execLdIYNN nn s
  | .ldAtNNIY nn => Sys2Proof.Machine.execLdAtNNIY nn s
  | .ldIYAtNN nn => Sys2Proof.Machine.execLdIYAtNN nn s
  | .incIY => Sys2Proof.Machine.execIncIY s
  | .decIY => Sys2Proof.Machine.execDecIY s
  | .incAtIY d => Sys2Proof.Machine.execIncAtIY d s
  | .decAtIY d => Sys2Proof.Machine.execDecAtIY d s
  | .ldAtIYN d n => Sys2Proof.Machine.execLdAtIYN d n s
  | .ldRAtIY rd d => Sys2Proof.Machine.execLdRAtIY rd d s
  | .ldAtIYR d rs => Sys2Proof.Machine.execLdAtIYR d rs s
  | .addAAtIY d => Sys2Proof.Machine.execAddAAtIY d s
  | .adcAAtIY d => Sys2Proof.Machine.execAdcAAtIY d s
  | .subAtIY d => Sys2Proof.Machine.execSubAtIY d s
  | .sbcAAtIY d => Sys2Proof.Machine.execSbcAAtIY d s
  | .andAtIY d => Sys2Proof.Machine.execAndAtIY d s
  | .xorAtIY d => Sys2Proof.Machine.execXorAtIY d s
  | .orAtIY d => Sys2Proof.Machine.execOrAtIY d s
  | .cpAtIY d => Sys2Proof.Machine.execCpAtIY d s
  | .popIY => Sys2Proof.Machine.execPopIY s
  | .exAtSPIY => Sys2Proof.Machine.execExAtSPIY s
  | .pushIY => Sys2Proof.Machine.execPushIY s
  | .jpIY => Sys2Proof.Machine.execJpIY s
  | .ldSPIY => Sys2Proof.Machine.execLdSPIY s
  | .rlcAtIY d => Sys2Proof.Machine.execRlcAtIY d s
  | .rrcAtIY d => Sys2Proof.Machine.execRrcAtIY d s
  | .rlAtIY d => Sys2Proof.Machine.execRlAtIY d s
  | .rrAtIY d => Sys2Proof.Machine.execRrAtIY d s
  | .slaAtIY d => Sys2Proof.Machine.execSlaAtIY d s
  | .sraAtIY d => Sys2Proof.Machine.execSraAtIY d s
  | .srlAtIY d => Sys2Proof.Machine.execSrlAtIY d s
  | .bitAtIY b d => Sys2Proof.Machine.execBitAtIY b d s
  | .resAtIY b d => Sys2Proof.Machine.execResAtIY b d s
  | .setAtIY b d => Sys2Proof.Machine.execSetAtIY b d s

end Sys2Proof.Machine
end

