-- ==== Sys2Proof/Machine/Cycle.lean ====
section
/-!
DEFINITION. Cycle: one turn of the fetch-decode-execute controller (00_scope.md R19, 20_memory.md R80): all bytes of an
instruction are fetched, then it executes; bytes that do not decode raise DecodeError (60_exceptions.md R431).
-/
namespace Sys2Proof.Machine

/-- R19, R76, R80, R431: one whole instruction of a run. -/
def State.cycle (s : State) : Result :=
  match s.fetchForbidden s.decodeNext.length with
  | true => .refused .wrapsAtTop
  | false =>
    match s.decodeNext with
    | .ok i len => exec i (s.fetchBytes len).2
    | .error _ len => .next (s.takeDecodeError (s.fetchBytes len).1)

end Sys2Proof.Machine
end

