-- ==== Sys2Proof/Machine/Step.lean ====
section
/-!
DEFINITION. Step: one step of CORE by its run status (10_state.md R49, 00_scope.md R20): a running machine performs one
instruction; one that is idle or faulted does nothing until the host starts a run (log 7, log 8).
-/
namespace Sys2Proof.Machine

/-- R19, R20, R434: one step. -/
def step (s : State) : Host.Outcome State Fault Refusal :=
  match s.status with
  | .running => s.cycle
  | .idle => .next s
  | .faulted _ _ _ => .next s

/-- The state whose next step runs the instruction of a table word: its bytes at PC, zeros after them up to four bytes,
and the run started (log 8, log 9). -/
def State.withFetchWord (s : State) (nbits w : Nat) : State :=
  { s with status := .running }.placeBytes s.pc ((tableBytes Params.default nbits w ++ [0, 0, 0, 0]).take 4)

end Sys2Proof.Machine
end

