-- ==== Sys2Proof/Machine/HostPort.lean ====
section
/-!
DEFINITION. HostPort: the host access port and the control inputs (00_scope.md R21, R23, R24, 60_exceptions.md R436,
70_reset_and_hazards.md R463), as functions of the state and not as steps (log 15). The host moves only between runs.
-/
namespace Sys2Proof.Machine

/-- R21, R24, R436: a host move between runs; during a run there is none. -/
def State.hostMove (s : State) (t : Result) : Result :=
  match s.status with
  | .running => .fault .hostMoveDuringRun
  | .idle => t
  | .faulted _ _ _ => t

/-- R24: `memory_load`, the bytes from an address on, which must end within memory. Its argument `size` is the length of the
byte list; of another size the spec says nothing (DESIGN CHOICE, log 22; safe). -/
def State.memoryLoad (s : State) (addr : Word) (bytes : List Byte) : Result :=
  s.hostMove (match decide (addr.toNat + bytes.length ≤ 65536) with
    | true => .next (s.placeBytes addr bytes)
    | false => .refused .hostCallOutsideGuarantee)

/-- R24: `memory_get_8`; a read that the host may make only between runs (R21). -/
def State.memoryGet8 (s : State) (addr : Word) : Option Byte :=
  match s.status with
  | .running => none
  | .idle => some (s.readByte addr)
  | .faulted _ _ _ => some (s.readByte addr)

/-- R24: `memory_put_8`. -/
def State.memoryPut8 (s : State) (addr : Word) (v : Byte) : Result :=
  s.hostMove (.next (s.writeByte addr v))

/-- R24: `memory_get_16`, the byte at the lower address the HIGH byte; no value at 0xFFFF. -/
def State.memoryGet16 (s : State) (addr : Word) : Option Word :=
  match s.status, addr == 0xFFFF with
  | .idle, false => some (joinBytes (s.readByte addr) (s.readByte (addr + 1)))
  | .faulted _ _ _, false => some (joinBytes (s.readByte addr) (s.readByte (addr + 1)))
  | _, _ => none

/-- R24: `memory_put_16`, high byte at the lower address (the spec's decision D1); refused at 0xFFFF. -/
def State.memoryPut16 (s : State) (addr : Word) (v : Word) : Result :=
  s.hostMove (match addr == 0xFFFF with
    | false => .next ((s.writeByte addr (hiByte v)).writeByte (addr + 1) (loByte v))
    | true => .refused .hostCallOutsideGuarantee)

/-- R24: the low-byte-first word read of the reversed accessor pair. That it has no value at 0xFFFF, as `memory_get_16` has
none, is the model's choice: R24 says it of the high-byte-first pair alone (DESIGN CHOICE, log 23; safe). -/
def State.memoryGet16Low (s : State) (addr : Word) : Option Word :=
  match s.status, addr == 0xFFFF with
  | .idle, false => some (s.readWord addr)
  | .faulted _ _ _, false => some (s.readWord addr)
  | _, _ => none

/-- R24: the low-byte-first word write of the reversed accessor pair. That it is refused at 0xFFFF, as `memory_put_16` is, is
the model's choice: R24 says it of the high-byte-first pair alone (DESIGN CHOICE, log 23; safe). -/
def State.memoryPut16Low (s : State) (addr : Word) (v : Word) : Result :=
  s.hostMove (match addr == 0xFFFF with
    | false => .next (s.writeWord addr v)
    | true => .refused .hostCallOutsideGuarantee)

/-- R10, R30: the 8-bit registers the host can write. -/
inductive HostReg8 where
  | a | f | b | c | d | e | h | l | aAlt | fAlt | bAlt | cAlt | dAlt | eAlt | hAlt | lAlt | i | r
  deriving DecidableEq, Repr

/-- R10, R30: the 16-bit registers the host can write. -/
inductive HostReg16 where
  | ix | iy | sp | pc
  deriving DecidableEq, Repr

/-- The content of an 8-bit register (R10). -/
def State.hostReg8 (s : State) : HostReg8 → Byte
  | .a => s.a | .f => s.f.toByte | .b => s.b | .c => s.c | .d => s.d | .e => s.e | .h => s.h | .l => s.l
  | .aAlt => s.aAlt | .fAlt => s.fAlt.toByte | .bAlt => s.bAlt | .cAlt => s.cAlt | .dAlt => s.dAlt | .eAlt => s.eAlt
  | .hAlt => s.hAlt | .lAlt => s.lAlt | .i => s.i | .r => s.r

/-- The content of a 16-bit register (R10). -/
def State.hostReg16 (s : State) : HostReg16 → Word
  | .ix => s.ix | .iy => s.iy | .sp => s.sp | .pc => s.pc

/-- R24: an 8-bit register read between runs. -/
def State.readReg8 (s : State) (k : HostReg8) : Option Byte :=
  match s.status with
  | .running => none
  | .idle => some (s.hostReg8 k)
  | .faulted _ _ _ => some (s.hostReg8 k)

/-- R24: a 16-bit register read between runs. -/
def State.readReg16 (s : State) (k : HostReg16) : Option Word :=
  match s.status with
  | .running => none
  | .idle => some (s.hostReg16 k)
  | .faulted _ _ _ => some (s.hostReg16 k)

/-- R24: an 8-bit register written between runs. -/
def State.writeReg8 (s : State) (k : HostReg8) (v : Byte) : Result :=
  s.hostMove (.next (match k with
    | .a => { s with a := v }
    | .f => { s with f := Flags.ofByte v }
    | .b => { s with b := v }
    | .c => { s with c := v }
    | .d => { s with d := v }
    | .e => { s with e := v }
    | .h => { s with h := v }
    | .l => { s with l := v }
    | .aAlt => { s with aAlt := v }
    | .fAlt => { s with fAlt := Flags.ofByte v }
    | .bAlt => { s with bAlt := v }
    | .cAlt => { s with cAlt := v }
    | .dAlt => { s with dAlt := v }
    | .eAlt => { s with eAlt := v }
    | .hAlt => { s with hAlt := v }
    | .lAlt => { s with lAlt := v }
    | .i => { s with i := v }
    | .r => { s with r := v }))

/-- R436: that the host has written PC, marked in `faulted` (log 16). -/
def RunStatus.markPcWritten : RunStatus → RunStatus
  | .idle => .idle
  | .running => .running
  | .faulted addr bytes _ => .faulted addr bytes true

/-- R24, R436: a 16-bit register written between runs. -/
def State.writeReg16 (s : State) (k : HostReg16) (v : Word) : Result :=
  s.hostMove (.next (match k with
    | .ix => { s with ix := v }
    | .iy => { s with iy := v }
    | .sp => { s with sp := v }
    | .pc => { s with pc := v, status := s.status.markPcWritten }))

/-- R3, R23, R463: `GEN` and the other parameters chosen between runs. -/
def State.setParams (s : State) (p : Params) : Result := s.hostMove (.next { s with params := p })

/-- R20, R436: `inst_fetch`, the start of a run; from `faulted` only after PC was written. -/
def State.startRun (s : State) : Result :=
  match s.status with
  | .running => .fault .hostMoveDuringRun
  | .idle => .next { s with status := .running }
  | .faulted _ _ true => .next { s with status := .running }
  | .faulted _ _ false => .refused .pcUnspecified

end Sys2Proof.Machine
end

