-- ==== Sys2Proof/Machine/Timing.lean ====
section
/-!
DEFINITION. Timing: the `states` output of an instruction (70_reset_and_hazards.md R475), which is not state and which
nothing reads: a positive number from an open table (log 17), and the spec's informative default table (R476).
-/
namespace Sys2Proof.Machine

/-- R475: whether the branch of a conditional instruction is taken in the state before its execute phase; true for
every other instruction. -/
def branchTaken (i : Instr) (s : State) : Bool :=
  match i with
  | .jpCC cc _ => s.cond cc
  | .jrCC cc _ => s.condJR cc
  | .callCC cc _ => s.cond cc
  | .retCC cc => s.cond cc
  | .djnz _ => decide (s.b - 1 ≠ 0)
  | _ => true

/-- R475, R231: how many iterations an instruction runs; 1 for one that does not repeat. -/
def iterations (i : Instr) (s : State) : Nat :=
  match i with
  | .ldir => repeatCount (State.transferOnce 1) State.countedOut repeatFuelBC s
  | .lddr => repeatCount (State.transferOnce (-1)) State.countedOut repeatFuelBC s
  | .cpir => repeatCount (State.compareOnce 1) State.compareDone repeatFuelBC s
  | .cpdr => repeatCount (State.compareOnce (-1)) State.compareDone repeatFuelBC s
  | .inir => repeatCount (State.inputOnce 1) State.portsDone repeatFuelB s
  | .indr => repeatCount (State.inputOnce (-1)) State.portsDone repeatFuelB s
  | .otir => repeatCount (State.outputOnce 1) State.portsDone repeatFuelB s
  | .otdr => repeatCount (State.outputOnce (-1)) State.portsDone repeatFuelB s
  | _ => 1

/-- R475: `states`, a positive integer, a function of the instruction, its branch and its iterations. -/
def statesOf (i : Instr) (s : State) : Nat := Config.statesLessOne i (branchTaken i s) (iterations i s) + 1

/-- R476: the shapes of the informative table. -/
inductive DefaultCost where
  | fixed (states : Nat)
  | branch (taken notTaken : Nat)
  | repeated
  deriving DecidableEq, Repr

/-- R476: the informative default table, not normative. -/
def defaultCost : Instr → DefaultCost
  | .ldRR _ _ => .fixed 4
  | .ldRN _ _ => .fixed 7
  | .ldRAtHL _ => .fixed 7
  | .ldAtHLR _ => .fixed 7
  | .ldAtHLN _ => .fixed 10
  | .ldAAtBC => .fixed 7
  | .ldAAtDE => .fixed 7
  | .ldAtBCA => .fixed 7
  | .ldAtDEA => .fixed 7
  | .ldAAtNN _ => .fixed 13
  | .ldAtNNA _ => .fixed 13
  | .ldSSNN _ _ => .fixed 10
  | .ldHLAtNN _ => .fixed 16
  | .ldAtNNHL _ => .fixed 16
  | .ldSPHL => .fixed 6
  | .pushQQ _ => .fixed 11
  | .popQQ _ => .fixed 10
  | .addAR _ => .fixed 4
  | .addAN _ => .fixed 7
  | .addAAtHL => .fixed 7
  | .adcAR _ => .fixed 4
  | .adcAN _ => .fixed 7
  | .adcAAtHL => .fixed 7
  | .subR _ => .fixed 4
  | .subN _ => .fixed 7
  | .subAtHL => .fixed 7
  | .sbcAR _ => .fixed 4
  | .sbcAN _ => .fixed 7
  | .sbcAAtHL => .fixed 7
  | .andR _ => .fixed 4
  | .andN _ => .fixed 7
  | .andAtHL => .fixed 7
  | .xorR _ => .fixed 4
  | .xorN _ => .fixed 7
  | .xorAtHL => .fixed 7
  | .orR _ => .fixed 4
  | .orN _ => .fixed 7
  | .orAtHL => .fixed 7
  | .cpR _ => .fixed 4
  | .cpN _ => .fixed 7
  | .cpAtHL => .fixed 7
  | .incR _ => .fixed 4
  | .incAtHL => .fixed 11
  | .decR _ => .fixed 4
  | .decAtHL => .fixed 11
  | .addHLSS _ => .fixed 11
  | .incSS _ => .fixed 6
  | .decSS _ => .fixed 6
  | .rlca => .fixed 4
  | .rrca => .fixed 4
  | .rla => .fixed 4
  | .rra => .fixed 4
  | .daa => .fixed 4
  | .cpl => .fixed 4
  | .scf => .fixed 4
  | .ccf => .fixed 4
  | .halt => .fixed 4
  | .nop => .fixed 4
  | .exAFAF => .fixed 4
  | .djnz _ => .branch 13 8
  | .jr _ => .fixed 12
  | .jrCC _ _ => .branch 12 7
  | .jp _ => .fixed 10
  | .jpCC _ _ => .fixed 10
  | .jpHL => .fixed 4
  | .call _ => .fixed 17
  | .callCC _ _ => .branch 17 10
  | .ret => .fixed 10
  | .retCC _ => .branch 11 5
  | .rst _ => .fixed 11
  | .outAtNA _ => .fixed 11
  | .inAAtN _ => .fixed 11
  | .exx => .fixed 4
  | .exAtSPHL => .fixed 19
  | .exDEHL => .fixed 4
  | .di => .fixed 4
  | .ei => .fixed 4
  | .rlcR _ => .fixed 8
  | .rlcAtHL => .fixed 15
  | .rrcR _ => .fixed 8
  | .rrcAtHL => .fixed 15
  | .rlR _ => .fixed 8
  | .rlAtHL => .fixed 15
  | .rrR _ => .fixed 8
  | .rrAtHL => .fixed 15
  | .slaR _ => .fixed 8
  | .slaAtHL => .fixed 15
  | .sraR _ => .fixed 8
  | .sraAtHL => .fixed 15
  | .srlR _ => .fixed 8
  | .srlAtHL => .fixed 15
  | .bitR _ _ => .fixed 8
  | .bitAtHL _ => .fixed 12
  | .resR _ _ => .fixed 8
  | .resAtHL _ => .fixed 15
  | .setR _ _ => .fixed 8
  | .setAtHL _ => .fixed 15
  | .inRAtC _ => .fixed 12
  | .outAtCR _ => .fixed 12
  | .sbcHLSS _ => .fixed 15
  | .adcHLSS _ => .fixed 15
  | .ldAtNNSS _ _ => .fixed 20
  | .ldSSAtNN _ _ => .fixed 20
  | .neg => .fixed 8
  | .retn => .fixed 14
  | .reti => .fixed 14
  | .im0 => .fixed 8
  | .im1 => .fixed 8
  | .im2 => .fixed 8
  | .ldIA => .fixed 9
  | .ldRA => .fixed 9
  | .ldAI => .fixed 9
  | .ldAR => .fixed 9
  | .rrd => .fixed 18
  | .rld => .fixed 18
  | .ldi => .fixed 16
  | .ldd => .fixed 16
  | .ldir => .repeated
  | .lddr => .repeated
  | .cpi => .fixed 16
  | .cpd => .fixed 16
  | .cpir => .repeated
  | .cpdr => .repeated
  | .ini => .fixed 16
  | .ind => .fixed 16
  | .inir => .repeated
  | .indr => .repeated
  | .outi => .fixed 16
  | .outd => .fixed 16
  | .otir => .repeated
  | .otdr => .repeated
  | .addIXPP _ => .fixed 15
  | .ldIXNN _ => .fixed 14
  | .ldAtNNIX _ => .fixed 20
  | .ldIXAtNN _ => .fixed 20
  | .incIX => .fixed 10
  | .decIX => .fixed 10
  | .incAtIX _ => .fixed 23
  | .decAtIX _ => .fixed 23
  | .ldAtIXN _ _ => .fixed 19
  | .ldRAtIX _ _ => .fixed 19
  | .ldAtIXR _ _ => .fixed 19
  | .addAAtIX _ => .fixed 19
  | .adcAAtIX _ => .fixed 19
  | .subAtIX _ => .fixed 19
  | .sbcAAtIX _ => .fixed 19
  | .andAtIX _ => .fixed 19
  | .xorAtIX _ => .fixed 19
  | .orAtIX _ => .fixed 19
  | .cpAtIX _ => .fixed 19
  | .popIX => .fixed 14
  | .exAtSPIX => .fixed 23
  | .pushIX => .fixed 15
  | .jpIX => .fixed 8
  | .ldSPIX => .fixed 10
  | .rlcAtIX _ => .fixed 23
  | .rrcAtIX _ => .fixed 23
  | .rlAtIX _ => .fixed 23
  | .rrAtIX _ => .fixed 23
  | .slaAtIX _ => .fixed 23
  | .sraAtIX _ => .fixed 23
  | .srlAtIX _ => .fixed 23
  | .bitAtIX _ _ => .fixed 20
  | .resAtIX _ _ => .fixed 23
  | .setAtIX _ _ => .fixed 23
  | .addIYRR _ => .fixed 15
  | .ldIYNN _ => .fixed 14
  | .ldAtNNIY _ => .fixed 20
  | .ldIYAtNN _ => .fixed 20
  | .incIY => .fixed 10
  | .decIY => .fixed 10
  | .incAtIY _ => .fixed 23
  | .decAtIY _ => .fixed 23
  | .ldAtIYN _ _ => .fixed 19
  | .ldRAtIY _ _ => .fixed 19
  | .ldAtIYR _ _ => .fixed 19
  | .addAAtIY _ => .fixed 19
  | .adcAAtIY _ => .fixed 19
  | .subAtIY _ => .fixed 19
  | .sbcAAtIY _ => .fixed 19
  | .andAtIY _ => .fixed 19
  | .xorAtIY _ => .fixed 19
  | .orAtIY _ => .fixed 19
  | .cpAtIY _ => .fixed 19
  | .popIY => .fixed 14
  | .exAtSPIY => .fixed 23
  | .pushIY => .fixed 15
  | .jpIY => .fixed 8
  | .ldSPIY => .fixed 10
  | .rlcAtIY _ => .fixed 23
  | .rrcAtIY _ => .fixed 23
  | .rlAtIY _ => .fixed 23
  | .rrAtIY _ => .fixed 23
  | .slaAtIY _ => .fixed 23
  | .sraAtIY _ => .fixed 23
  | .srlAtIY _ => .fixed 23
  | .bitAtIY _ _ => .fixed 20
  | .resAtIY _ _ => .fixed 23
  | .setAtIY _ _ => .fixed 23

/-- R476: the informative default of `states`; a repeating instruction of k iterations costs 21 * (k - 1) + 16. -/
def defaultStates (i : Instr) (s : State) : Nat :=
  match defaultCost i with
  | .fixed n => n
  | .branch taken notTaken => if branchTaken i s then taken else notTaken
  | .repeated => 21 * (iterations i s - 1) + 16

end Sys2Proof.Machine
end

