-- ==== Sys2Proof/Safety.lean ====
section
/-!
DEFINITION. Safety: the words in which claims about CORE are stated: the parts of the state and what it is for one to be
unchanged, what a run's ends are (00_scope.md R20, 60_exceptions.md R434), and the invariant of the memory's form.
-/
namespace Sys2Proof.Machine

/-- The parts of the state a claim can name, each flag a part of its own. -/
inductive Field where
  | a | b | c | d | e | h | l
  | flagS | flagZ | flagX5 | flagH | flagX3 | flagPV | flagN | flagC
  | aAlt | fAlt | bAlt | cAlt | dAlt | eAlt | hAlt | lAlt
  | ix | iy | sp | pc | i | r | memory | status | params | ioTrace | draws
  deriving DecidableEq, Repr

/-- A part is the same in two states; memory is compared byte by byte. -/
def Field.same (k : Field) (s t : State) : Prop :=
  match k with
  | .a => t.a = s.a
  | .b => t.b = s.b
  | .c => t.c = s.c
  | .d => t.d = s.d
  | .e => t.e = s.e
  | .h => t.h = s.h
  | .l => t.l = s.l
  | .aAlt => t.aAlt = s.aAlt
  | .fAlt => t.fAlt = s.fAlt
  | .bAlt => t.bAlt = s.bAlt
  | .cAlt => t.cAlt = s.cAlt
  | .dAlt => t.dAlt = s.dAlt
  | .eAlt => t.eAlt = s.eAlt
  | .hAlt => t.hAlt = s.hAlt
  | .lAlt => t.lAlt = s.lAlt
  | .ix => t.ix = s.ix
  | .iy => t.iy = s.iy
  | .sp => t.sp = s.sp
  | .pc => t.pc = s.pc
  | .i => t.i = s.i
  | .r => t.r = s.r
  | .status => t.status = s.status
  | .params => t.params = s.params
  | .ioTrace => t.ioTrace = s.ioTrace
  | .draws => t.draws = s.draws
  | .flagS => t.f.s = s.f.s
  | .flagZ => t.f.z = s.f.z
  | .flagX5 => t.f.x5 = s.f.x5
  | .flagH => t.f.h = s.f.h
  | .flagX3 => t.f.x3 = s.f.x3
  | .flagPV => t.f.pv = s.f.pv
  | .flagN => t.f.n = s.f.n
  | .flagC => t.f.c = s.f.c
  | .memory => ∀ addr : Word, t.readByte addr = s.readByte addr

/-- Every part not listed is the same. -/
def Unchanged (touched : List Field) (s t : State) : Prop :=
  ∀ k : Field, k ∉ touched → k.same s t

/-- Every byte of memory outside these addresses is the same. -/
def MemoryOutside (stored : List Word) (s t : State) : Prop :=
  ∀ addr : Word, addr ∉ stored → t.readByte addr = s.readByte addr

/-- R37: what an instruction that writes a flag leaves unspecified, and the model's own draw counter. -/
def unspecifiedBits : List Field := [.flagX5, .flagX3, .draws]

/-- What an instruction that writes a flag may change: these parts, and what it leaves unspecified. -/
def withUnspecified (touched : List Field) : List Field := touched ++ unspecifiedBits

/-- The six flags with a meaning (R11). -/
def sixFlags : List Field := [.flagS, .flagZ, .flagH, .flagPV, .flagN, .flagC]

/-- All eight bits of F (R37). -/
def allFlags : List Field := [.flagS, .flagZ, .flagX5, .flagH, .flagX3, .flagPV, .flagN, .flagC]

end Sys2Proof.Machine

namespace Sys2Proof

open Sys2Proof.Machine

/-- The part a register field names (R40). -/
def Reg.field : Reg → Field
  | .b => .b | .c => .c | .d => .d | .e => .e | .h => .h | .l => .l | .a => .a

/-- The parts a pair field names (R41). -/
def RegSS.fields : RegSS → List Field
  | .bc => [.b, .c] | .de => [.d, .e] | .hl => [.h, .l] | .sp => [.sp]

/-- The parts a pair field of PUSH and POP names (R42). -/
def RegQQ.fields : RegQQ → List Field
  | .bc => [.b, .c] | .de => [.d, .e] | .hl => [.h, .l] | .af => .a :: allFlags

end Sys2Proof

namespace Sys2Proof.Machine

/-- The shadow set (R33). -/
def shadowSet : List Field := [.aAlt, .fAlt, .bAlt, .cAlt, .dAlt, .eAlt, .hAlt, .lAlt]

/-- R76: a word access at this address has a meaning: `WRAP_FFFF` is `wrap`, or it does not cross the top of memory. -/
def State.wordAllowed (s : State) (addr : Word) : Prop := s.params.wrapFfff = .wrap ∨ addr ≠ 0xFFFF

/-- R76: the fetch of this many bytes at PC has a meaning. -/
def State.fetchAllowed (s : State) (len : Nat) : Prop := s.params.wrapFfff = .wrap ∨ s.pc.toNat + len ≤ 65536

/-- R76, R78: the lower address of the word an instruction accesses in its execute phase, if it accesses one (log 13). -/
def wordAccess (i : Instr) (s : State) : Option Word :=
  match i with
  | .ldHLAtNN nn => some nn
  | .ldAtNNHL nn => some nn
  | .ldSSAtNN _ nn => some nn
  | .ldAtNNSS nn _ => some nn
  | .ldIXAtNN nn => some nn
  | .ldAtNNIX nn => some nn
  | .ldIYAtNN nn => some nn
  | .ldAtNNIY nn => some nn
  | .pushQQ _ => some (s.sp - 2)
  | .pushIX => some (s.sp - 2)
  | .pushIY => some (s.sp - 2)
  | .call _ => some (s.sp - 2)
  | .callCC cc _ => if s.cond cc = true then some (s.sp - 2) else none
  | .rst _ => some (s.sp - 2)
  | .popQQ _ => some s.sp
  | .popIX => some s.sp
  | .popIY => some s.sp
  | .ret => some s.sp
  | .retCC cc => if s.cond cc = true then some s.sp else none
  | .reti => some s.sp
  | .retn => some s.sp
  | .exAtSPHL => some s.sp
  | .exAtSPIX => some s.sp
  | .exAtSPIY => some s.sp
  | _ => none

/-- R76: the step has no meaning: its fetch, or the word its instruction accesses, crosses from 0xFFFF to 0x0000 under
`WRAP_FFFF = fault` (log 13). -/
def State.crossesTop (s : State) : Prop :=
  ¬ s.fetchAllowed s.decodeNext.length ∨
  ∃ (i : Instr) (len : Nat) (addr : Word), s.decodeNext = .ok i len ∧ wordAccess i s = some addr ∧ ¬ s.wordAllowed addr

/-- The invariant of the model: memory is in its canonical form, so that equal memories are equal data. -/
def State.Inv (s : State) : Prop := s.mem.wf = true

/-- R20, R396: from `s`, a run in progress, the machine comes to `t`, ended by HALT. -/
def HaltsIn (s t : State) : Prop :=
  s.status = .running ∧ t.status = .idle ∧ ∃ k, Sys2Proof.core.run k s = .next t

/-- R20, R434: from `s`, a run in progress, the machine comes to `t`, ended by a DecodeError with this record. -/
def FaultsIn (s : State) (addr : Word) (bytes : List Byte) (t : State) : Prop :=
  s.status = .running ∧ t.status = .faulted addr bytes false ∧ ∃ k, Sys2Proof.core.run k s = .next t

/-- What a safe run keeps: no step of it stops, with a fault or a refusal. -/
def RunsSafely (s : State) : Prop :=
  ∀ k, ∃ t, Sys2Proof.core.run k s = .next t

/-! ## Arithmetic in whole numbers, for claims about the ALU -/

/-- R141: how many bits of a byte are 1. -/
def onesIn (v : Byte) : Nat := ((List.range 8).filter (fun k => v.getLsbD k)).length

/-- R144: what PV is after 8-bit arithmetic: under `Z80` the signed overflow, under `I80` even parity of the result. -/
def PvMeans (g : Gen) (overflow : Prop) (res : Byte) (pv : Bool) : Prop :=
  (g = .z80 → (pv = true ↔ overflow)) ∧ (g = .i80 → (pv = true ↔ onesIn res % 2 = 0))

/-- R142 in whole numbers: the result and the six flags of `a + v + cin`. -/
def AddsExactly (g : Gen) (a v : Byte) (cin : Bool) (res : Byte) (fl : Flags) : Prop :=
  res.toNat = (a.toNat + v.toNat + cin.toNat) % 256 ∧
  (fl.s = true ↔ 128 ≤ res.toNat) ∧ (fl.z = true ↔ res.toNat = 0) ∧
  (fl.h = true ↔ 16 ≤ a.toNat % 16 + v.toNat % 16 + cin.toNat) ∧
  PvMeans g (res.toInt ≠ a.toInt + v.toInt + cin.toNat) res fl.pv ∧
  fl.n = false ∧ (fl.c = true ↔ 256 ≤ a.toNat + v.toNat + cin.toNat)

/-- R143 in whole numbers: the result and the six flags of `a - v - cin`. -/
def SubtractsExactly (g : Gen) (a v : Byte) (cin : Bool) (res : Byte) (fl : Flags) : Prop :=
  (res.toNat : Int) = ((a.toNat : Int) - v.toNat - cin.toNat) % 256 ∧
  (fl.s = true ↔ 128 ≤ res.toNat) ∧ (fl.z = true ↔ res.toNat = 0) ∧
  (fl.h = true ↔ a.toNat % 16 < v.toNat % 16 + cin.toNat) ∧
  PvMeans g (res.toInt ≠ a.toInt - v.toInt - cin.toNat) res fl.pv ∧
  fl.n = true ∧ (fl.c = true ↔ a.toNat < v.toNat + cin.toNat)

/-- S, Z and PV of a byte, PV its even parity (R147, R305, R307, R414). -/
def ByteFlags (v : Byte) (fl : Flags) : Prop :=
  (fl.s = true ↔ 128 ≤ v.toNat) ∧ (fl.z = true ↔ v.toNat = 0) ∧ (fl.pv = true ↔ onesIn v % 2 = 0)

/-- R151 bit by bit: the result and the bit moved out of each kind of rotate and shift. -/
def RotatesTo (kind : RotKind) (v : Byte) (cin : Bool) (res : Byte) (cout : Bool) : Prop :=
  match kind with
  | .rlc => cout = v.getLsbD 7 ∧ res.getLsbD 0 = v.getLsbD 7 ∧ ∀ k < 7, res.getLsbD (k + 1) = v.getLsbD k
  | .rrc => cout = v.getLsbD 0 ∧ res.getLsbD 7 = v.getLsbD 0 ∧ ∀ k < 7, res.getLsbD k = v.getLsbD (k + 1)
  | .rl => cout = v.getLsbD 7 ∧ res.getLsbD 0 = cin ∧ ∀ k < 7, res.getLsbD (k + 1) = v.getLsbD k
  | .rr => cout = v.getLsbD 0 ∧ res.getLsbD 7 = cin ∧ ∀ k < 7, res.getLsbD k = v.getLsbD (k + 1)
  | .sla => cout = v.getLsbD 7 ∧ res.getLsbD 0 = false ∧ ∀ k < 7, res.getLsbD (k + 1) = v.getLsbD k
  | .sra => cout = v.getLsbD 0 ∧ res.getLsbD 7 = v.getLsbD 7 ∧ ∀ k < 7, res.getLsbD k = v.getLsbD (k + 1)
  | .srl => cout = v.getLsbD 0 ∧ res.getLsbD 7 = false ∧ ∀ k < 7, res.getLsbD k = v.getLsbD (k + 1)

/-- R153: the adjustment of DAA in whole numbers, 0x06 for the low digit and 0x60 for the high one. -/
def daaAdjust (s : State) : Nat :=
  (if s.f.h = true ∨ 9 < s.a.toNat % 16 then 6 else 0) + (if s.f.c = true ∨ 0x99 < s.a.toNat then 96 else 0)

/-- The value of a packed-BCD byte. -/
def bcdValue (v : Byte) : Nat := v.toNat / 16 * 10 + v.toNat % 16

/-- Both digits of a packed-BCD byte are decimal. -/
def IsBcd (v : Byte) : Prop := v.toNat / 16 ≤ 9 ∧ v.toNat % 16 ≤ 9

/-! ## Block instructions (R231) -/

/-- R231: how many times a loop counted by BC runs, 65536 from BC = 0. -/
def State.countBC (s : State) : Nat := if s.bc = 0 then 65536 else s.bc.toNat

/-- R231: how many times a loop counted by B runs, 256 from B = 0. -/
def State.countB (s : State) : Nat := if s.b = 0 then 256 else s.b.toNat

/-- The address `k` moves of `step` away. -/
def addrAfter (start step : Word) (k : Nat) : Word := start + step * BitVec.ofNat 16 k

/-- R231, R234, R235: memory after `k` iterations of a block transfer, each iteration's read before its write. -/
def copyAfter (s : State) (step : Word) : Nat → Word → Byte
  | 0, addr => s.readByte addr
  | k + 1, addr =>
    if addr = addrAfter s.de step k then copyAfter s step k (addrAfter s.hl step k) else copyAfter s step k addr

/-! ## Several instructions, and states apart from the shadow set -/

/-- The execute phases of several instructions in turn. -/
def execAll : List Instr → State → Result
  | [], s => .next s
  | i :: rest, s =>
    match exec i s with
    | .next t => execAll rest t
    | .fault why => .fault why
    | .refused why => .refused why

/-- A state with the shadow set of another (R33). -/
def State.withShadowOf (s from_ : State) : State :=
  { s with aAlt := from_.aAlt, fAlt := from_.fAlt, bAlt := from_.bAlt, cAlt := from_.cAlt, dAlt := from_.dAlt,
           eAlt := from_.eAlt, hAlt := from_.hAlt, lAlt := from_.lAlt }

/-! ## The host's moves (R24) -/

/-- The parts an 8-bit register of the host port names. -/
def HostReg8.fields : HostReg8 → List Field
  | .a => [.a] | .f => allFlags | .b => [.b] | .c => [.c] | .d => [.d] | .e => [.e] | .h => [.h] | .l => [.l]
  | .aAlt => [.aAlt] | .fAlt => [.fAlt] | .bAlt => [.bAlt] | .cAlt => [.cAlt] | .dAlt => [.dAlt] | .eAlt => [.eAlt]
  | .hAlt => [.hAlt] | .lAlt => [.lAlt] | .i => [.i] | .r => [.r]

/-- The part a 16-bit register of the host port names. -/
def HostReg16.field : HostReg16 → Field
  | .ix => .ix | .iy => .iy | .sp => .sp | .pc => .pc

/-- R21: during a run every move of the host is a fault and every read has no value; that a move answers a fault is the
model's choice (log 15). -/
def State.HostIsShutOut (s : State) : Prop :=
  (∀ (addr v : Word) (w : Byte) (bytes : List Byte) (k8 : HostReg8) (k16 : HostReg16) (p : Params),
    ∀ move ∈ [s.memoryLoad addr bytes, s.memoryPut8 addr w, s.memoryPut16 addr v, s.memoryPut16Low addr v, s.writeReg8 k8 w,
        s.writeReg16 k16 v, s.setParams p, s.startRun], move = .fault .hostMoveDuringRun) ∧
  (∀ (addr : Word) (k8 : HostReg8) (k16 : HostReg16),
    s.memoryGet8 addr = none ∧ s.memoryGet16 addr = none ∧ s.memoryGet16Low addr = none ∧ s.readReg8 k8 = none ∧
    s.readReg16 k16 = none)

/-- R24, R88: the byte accessors, the word pair high byte first, and the reversed pair low byte first. At 0xFFFF the
first word pair is refused by R24, the reversed pair by the model's choice (log 23). -/
def State.HostReachesMemory (s : State) : Prop :=
  (∀ addr : Word, s.memoryGet8 addr = some (s.readByte addr)) ∧
  (∀ (addr : Word) (w : Byte), ∃ t : State, s.memoryPut8 addr w = .next t ∧ t.memoryGet8 addr = some w ∧
    MemoryOutside [addr] s t ∧ Unchanged [.memory] s t) ∧
  (∀ addr v : Word, addr ≠ 0xFFFF →
    (∃ got, s.memoryGet16 addr = some got ∧
      got.toNat = (s.readByte addr).toNat * 256 + (s.readByte (addr + 1)).toNat) ∧
    (∃ got, s.memoryGet16Low addr = some got ∧
      got.toNat = (s.readByte (addr + 1)).toNat * 256 + (s.readByte addr).toNat) ∧
    (∃ t : State, s.memoryPut16 addr v = .next t ∧ (t.readByte addr).toNat = v.toNat / 256 ∧
      (t.readByte (addr + 1)).toNat = v.toNat % 256 ∧ MemoryOutside [addr, addr + 1] s t ∧ Unchanged [.memory] s t) ∧
    (∃ t : State, s.memoryPut16Low addr v = .next t ∧ (t.readByte addr).toNat = v.toNat % 256 ∧
      (t.readByte (addr + 1)).toNat = v.toNat / 256 ∧ MemoryOutside [addr, addr + 1] s t ∧ Unchanged [.memory] s t)) ∧
  (∀ v : Word, s.memoryGet16 0xFFFF = none ∧ s.memoryGet16Low 0xFFFF = none ∧
    s.memoryPut16 0xFFFF v = .refused .hostCallOutsideGuarantee ∧
    s.memoryPut16Low 0xFFFF v = .refused .hostCallOutsideGuarantee)

/-- R24: a load that ends within memory stores its bytes, one past its end is refused (log 22). -/
def State.HostLoads (s : State) : Prop :=
  ∀ (addr : Word) (bytes : List Byte),
    (65536 < addr.toNat + bytes.length → s.memoryLoad addr bytes = .refused .hostCallOutsideGuarantee) ∧
    (addr.toNat + bytes.length ≤ 65536 →
      ∃ t : State, s.memoryLoad addr bytes = .next t ∧
        (∀ k < bytes.length, bytes[k]? = some (t.readByte (addr + BitVec.ofNat 16 k))) ∧
        MemoryOutside ((List.range bytes.length).map (fun k => addr + BitVec.ofNat 16 k)) s t ∧
        Unchanged [.memory] s t)

/-- R10, R24, R30: each register is read as it is and reads back what is written to it, and a write changes no other
part, but that in `faulted` the write of PC is marked (log 16); and the parameters are set (R463). -/
def State.HostReachesRegisters (s : State) : Prop :=
  (∀ reg ∈ [(HostReg8.a, s.a), (.f, s.f.toByte), (.b, s.b), (.c, s.c), (.d, s.d), (.e, s.e), (.h, s.h), (.l, s.l),
      (.aAlt, s.aAlt), (.fAlt, s.fAlt.toByte), (.bAlt, s.bAlt), (.cAlt, s.cAlt), (.dAlt, s.dAlt), (.eAlt, s.eAlt),
      (.hAlt, s.hAlt), (.lAlt, s.lAlt), (.i, s.i), (.r, s.r)], s.readReg8 reg.1 = some reg.2) ∧
  (∀ reg ∈ [(HostReg16.ix, s.ix), (.iy, s.iy), (.sp, s.sp), (.pc, s.pc)], s.readReg16 reg.1 = some reg.2) ∧
  (∀ (k : HostReg8) (v : Byte), ∃ t : State, s.writeReg8 k v = .next t ∧ t.readReg8 k = some v ∧ Unchanged k.fields s t) ∧
  (∀ (k : HostReg16) (v : Word), k ≠ .pc →
    ∃ t : State, s.writeReg16 k v = .next t ∧ t.readReg16 k = some v ∧ Unchanged [k.field] s t) ∧
  (∀ v : Word, ∃ t : State, s.writeReg16 .pc v = .next t ∧ t.readReg16 .pc = some v ∧ Unchanged [.pc, .status] s t ∧
    (s.status = .idle → t.status = .idle) ∧
    (∀ addr bytes w, s.status = .faulted addr bytes w → t.status = .faulted addr bytes true)) ∧
  (∀ p : Params, ∃ t : State, s.setParams p = .next t ∧ t.params = p ∧ Unchanged [.params] s t)

/-- R20, R436: a run starts from idle, and from `faulted` where PC was written since; where it was not, the start is
refused (log 16). Starting changes the status alone. -/
def State.HostStartsRuns (s : State) : Prop :=
  (s.status = .idle → s.startRun = .next { s with status := .running }) ∧
  (∀ addr bytes, s.status = .faulted addr bytes true → s.startRun = .next { s with status := .running }) ∧
  (∀ addr bytes, s.status = .faulted addr bytes false → s.startRun = .refused .pcUnspecified)

/-- An outcome with its next state changed. -/
def mapNext (change : State → State) (o : Result) : Result :=
  match o with
  | .next t => .next (change t)
  | .fault why => .fault why
  | .refused why => .refused why

end Sys2Proof.Machine
end

