-- ==== Sys2Proof/Certificates/Slice0/Obligations.lean ====
section
/-!
DEFINITION. Obligations: what is claimed of CORE, one `def Obligations.<Name> : Prop` for each claim. Results are stated
in whole numbers and bits, each with its frame: what the instruction leaves unchanged.
-/

open Sys2Proof Sys2Proof.Machine

/-! ## Encoding -/

/-- R101, R111, R112, R120 to R124, R132: words written out from the spec's encodings, at least one from each of the seven
tables, decode to the instructions they stand for. -/
def Obligations.WordsDecodeAsTabled : Prop :=
  decode Params.default 0x78 0 0 0 = .ok (.ldRR .a .b) 1 ∧
  decode Params.default 0x21 0x23 0x01 0 = .ok (.ldSSNN .hl 0x0123) 3 ∧
  decode Params.default 0xF1 0 0 0 = .ok (.popQQ .af) 1 ∧
  decode Params.default 0xE2 0x34 0x12 0 = .ok (.jpCC .po 0x1234) 3 ∧
  decode Params.default 0x76 0 0 0 = .ok .halt 1 ∧
  decode Params.default 0x38 0x10 0 0 = .ok (.jrCC .c 0x10) 2 ∧
  decode Params.default 0xCB 0x7E 0 0 = .ok (.bitAtHL 7) 2 ∧
  decode Params.default 0xED 0x7B 0x00 0x01 = .ok (.ldSSAtNN .sp 0x0100) 4 ∧
  decode Params.default 0xED 0xB1 0 0 = .ok .cpir 2 ∧
  decode Params.default 0xDD 0x36 0x02 0xAB = .ok (.ldAtIXN 0x02 0xAB) 4 ∧
  decode Params.default 0xFD 0x70 0x05 0 = .ok (.ldAtIYR 0x05 .b) 3 ∧
  decode Params.default 0xDD 0xCB 0x03 0x46 = .ok (.bitAtIX 0 0x03) 4 ∧
  decode Params.default 0xFD 0xCB 0x10 0x9E = .ok (.resAtIY 3 0x10) 4 ∧
  decode Params.default 0xDD 0x76 0 0 = .error .noDD 2

/-- R100, R103, R119: for every instruction the parameters allow, decoding its encoding gives it back, with every operand
and whatever bytes follow. -/
def Obligations.DecodeOfEncode : Prop :=
  ∀ (p : Params) (i : Instr) (rest : List Byte), i.wellFormed p = true →
    decodeBytes p (encode i ++ rest) = some (.ok i (encode i).length, rest)

/-- R119: bytes that decode are exactly the encoding of what they decode to, which the parameters allow; so no two rows
overlap. -/
def Obligations.EncodeOfDecode : Prop :=
  ∀ (p : Params) (b0 b1 b2 b3 : Byte) (i : Instr) (len : Nat), decode p b0 b1 b2 b3 = .ok i len →
    encode i = [b0, b1, b2, b3].take len ∧ len = (encode i).length ∧ i.wellFormed p = true

/-- R118: under `GEN = Z80` every row is available; under `GEN = I80` only the rows of both generations are, and the
first bytes that raise DecodeError for it are exactly the twelve listed. -/
def Obligations.GenerationGatesFirstByte : Prop :=
  (∀ i : Instr, i.inGeneration .z80 = true) ∧
  (∀ i : Instr, i.inGeneration .i80 = true ↔ i.availability.1 = .both) ∧
  ∀ (p : Params) (b0 b1 b2 b3 : Byte), p.gen = .i80 →
    (∀ i len, decode p b0 b1 b2 b3 = .ok i len → i.availability.1 = .both) ∧
    ((∃ len, decode p b0 b1 b2 b3 = .error .z80Only len) ↔
      b0 ∈ [0x08, 0x10, 0x18, 0x20, 0x28, 0x30, 0x38, 0xD9, 0xCB, 0xDD, 0xED, 0xFD]) ∧
    (p.tierC = .admitted → b0 ∉ [0x08, 0x10, 0x18, 0x20, 0x28, 0x30, 0x38, 0xD9, 0xCB, 0xDD, 0xED, 0xFD] →
      ∃ i len, decode p b0 b1 b2 b3 = .ok i len)

/-- R119: under `GEN = Z80` the bytes that raise DecodeError are exactly those listed at (a) to (d), and with
`TIER_C = fault` the tier C rows as well. -/
def Obligations.UndefinedEncodingsAreListed : Prop :=
  ∀ (p : Params) (b0 b1 b2 b3 : Byte), p.gen = .z80 →
    ((∃ why len, decode p b0 b1 b2 b3 = .error why len) ↔
      (b0 = 0xCB ∧ 0x30 ≤ b1.toNat ∧ b1.toNat ≤ 0x37) ∨
      (b0 = 0xED ∧
        (b1.toNat ≤ 0x3F ∨ (0x80 ≤ b1.toNat ∧ b1.toNat ≤ 0x9F) ∨ (0xA4 ≤ b1.toNat ∧ b1.toNat ≤ 0xA7) ∨
          (0xAC ≤ b1.toNat ∧ b1.toNat ≤ 0xAF) ∨ (0xB4 ≤ b1.toNat ∧ b1.toNat ≤ 0xB7) ∨ 0xBC ≤ b1.toNat ∨
          b1 ∈ [0x4C, 0x4E, 0x54, 0x55, 0x5C, 0x5D, 0x64, 0x65, 0x66, 0x6C, 0x6D, 0x6E, 0x70, 0x71, 0x74, 0x75, 0x76,
            0x77, 0x7C, 0x7D, 0x7E, 0x7F])) ∨
      ((b0 = 0xDD ∨ b0 = 0xFD) ∧ b1 ≠ 0xCB ∧
        b1 ∉ [0x09, 0x19, 0x29, 0x39, 0x21, 0x22, 0x23, 0x2A, 0x2B, 0x34, 0x35, 0x36, 0x46, 0x4E, 0x56, 0x5E, 0x66, 0x6E,
          0x7E, 0x70, 0x71, 0x72, 0x73, 0x74, 0x75, 0x77, 0x86, 0x8E, 0x96, 0x9E, 0xA6, 0xAE, 0xB6, 0xBE, 0xE1, 0xE3,
          0xE5, 0xE9, 0xF9]) ∨
      ((b0 = 0xDD ∨ b0 = 0xFD) ∧ b1 = 0xCB ∧ (b3.toNat % 8 ≠ 6 ∨ b3 = 0x36)) ∨
      (p.tierC = .fault ∧
        (b0 ∈ [0x00, 0xC7, 0xCF, 0xD7, 0xDF, 0xE7, 0xEF, 0xF7, 0xFF, 0xF3, 0xFB] ∨
          (b0 = 0xED ∧
            b1 ∈ [0x40, 0x48, 0x50, 0x58, 0x60, 0x68, 0x78, 0x41, 0x49, 0x51, 0x59, 0x61, 0x69, 0x79, 0x45, 0x4D, 0x46,
              0x56, 0x5E, 0x6F, 0xA2, 0xAA, 0xB2, 0xBA, 0xA3, 0xAB, 0xB3, 0xBB]))))

/-- R100, R130, R431: how many bytes are fetched, for an instruction and for each cause of a DecodeError; and that this
depends on the table and the opcode byte alone. -/
def Obligations.BytesFetched : Prop :=
  (∀ i : Instr, 1 ≤ (encode i).length ∧ (encode i).length ≤ 4) ∧
  (∀ (p : Params) (b0 b1 b2 b3 : Byte),
    match decode p b0 b1 b2 b3 with
    | .ok i len => len = (encode i).length
    | .error .z80Only len => len = 1
    | .error .tierC len => len = if b0 = 0xED then 2 else 1
    | .error .noCB len => len = 2 ∧ b0 = 0xCB
    | .error .noED len => len = 2 ∧ b0 = 0xED
    | .error .noDD len => len = 2 ∧ b0 = 0xDD
    | .error .noFD len => len = 2 ∧ b0 = 0xFD
    | .error .noDDCB len => len = 4 ∧ b0 = 0xDD ∧ b1 = 0xCB
    | .error .noFDCB len => len = 4 ∧ b0 = 0xFD ∧ b1 = 0xCB) ∧
  (∀ (p : Params) (b0 b1 b2 b3 c1 c2 c3 : Byte), b0 ∉ [0xCB, 0xED, 0xDD, 0xFD] →
    (decode p b0 b1 b2 b3).length = (decode p b0 c1 c2 c3).length) ∧
  (∀ (p : Params) (b0 b1 b2 b3 c2 c3 : Byte), ¬ ((b0 = 0xDD ∨ b0 = 0xFD) ∧ b1 = 0xCB) →
    (decode p b0 b1 b2 b3).length = (decode p b0 b1 c2 c3).length)

/-! ## One step -/

/-- R13, R17, R19, R80: where the bytes at PC decode to an instruction and its fetch has a meaning, a step of a run is
that instruction's execute phase, PC and R already moved by its length. -/
def Obligations.StepRunsDecoded : Prop :=
  ∀ (s : State) (i : Instr) (len : Nat), s.status = .running →
    decode s.params (s.readByte s.pc) (s.readByte (s.pc + 1)) (s.readByte (s.pc + 2)) (s.readByte (s.pc + 3)) = .ok i len →
    s.fetchAllowed len →
    step s = exec i { s with pc := s.pc + BitVec.ofNat 16 len, r := s.r + BitVec.ofNat 8 len }

/-- R432, R433, R434: where the bytes at PC do not decode, the step ends the run with the status `faulted`, recording the
address and the bytes fetched; nothing else changes, but for PC and R, of which nothing is said. That this is a next state
of the step is the model's reading (log 6), and `false`, that the host has not written PC since, is the model's own mark
(log 16). -/
def Obligations.StepTakesDecodeError : Prop :=
  ∀ (s : State) (why : DecodeReason) (len : Nat), s.status = .running →
    decode s.params (s.readByte s.pc) (s.readByte (s.pc + 1)) (s.readByte (s.pc + 2)) (s.readByte (s.pc + 3)) = .error why len →
    s.fetchAllowed len →
    ∃ (t : State) (bytes : List Byte), step s = .next t ∧ t.status = .faulted s.pc bytes false ∧ bytes.length = len ∧
      (∀ k < len, bytes[k]? = some (s.readByte (s.pc + BitVec.ofNat 16 k))) ∧
      Unchanged [.status, .pc, .r, .draws] s t

/-- R430, R431, R3, R76: a step is refused exactly where a run's fetch or its instruction's word access crosses from
0xFFFF to 0x0000 under `WRAP_FFFF = fault` (which accesses count: log 13), and answers a next state, with the
configuration as it was, everywhere else; it never faults. That an idle or faulted machine's step answers a state is the
model's choice (log 7), and that bytes which do not decode do is its reading (log 6). -/
def Obligations.EveryStepCompletes : Prop :=
  ∀ s : State,
    (s.status = .running → s.crossesTop → step s = .refused .wrapsAtTop) ∧
    (¬ (s.status = .running ∧ s.crossesTop) → ∃ t : State, step s = .next t ∧ t.params = s.params)

/-- R396: HALT ends the run. The step moves PC and R past the byte, the status becomes `idle`, nothing else changes; and a
run the host starts again without changing PC goes on after the HALT. -/
def Obligations.HaltEndsTheRun : Prop :=
  ∀ s : State, s.status = .running → s.readByte s.pc = 0x76 →
    ∃ t : State, step s = .next t ∧ exec .halt { s with pc := s.pc + 1, r := s.r + 1 } = .next t ∧ t.status = .idle ∧
      t.pc = s.pc + 1 ∧ t.r = s.r + 1 ∧ Unchanged [.status, .pc, .r] s t ∧
      t.startRun = .next { t with status := .running }

/-- R397 to R402: NOP, DI, EI and IM do nothing in their execute phase. -/
def Obligations.NoEffectInstructions : Prop :=
  ∀ (s : State), ∀ i ∈ [Instr.nop, .di, .ei, .im0, .im1, .im2], exec i s = .next s

/-- The memory's canonical form is an invariant: every step that answers a next state keeps it (log 3). -/
def Obligations.StepKeepsMemoryForm : Prop :=
  ∀ s t : State, s.Inv → step s = .next t → t.Inv

/-- R51, R434, R20: the run status at creation is `idle`, the invariant holds there and the I/O trace is empty (log 5);
outside a run nothing is fetched. That a step outside a run leaves the state as it is is the model's choice (log 7). The register values
of the reset state are the model's choice (log 2) and are not claimed. -/
def Obligations.ResetIsIdleAndIdleStays : Prop :=
  State.reset.status = .idle ∧ State.reset.Inv ∧ State.reset.ioTrace = [] ∧
  ∀ s : State, s.status ≠ .running → step s = .next s

/-! ## Who writes what -/

/-- R33, R382, R383: only EX AF,AF' and EXX change the shadow set, and they swap it with the main set. -/
def Obligations.ShadowSetOnlySwapped : Prop :=
  (∀ (i : Instr) (s t : State), exec i s = .next t → i ≠ .exAFAF → i ≠ .exx → ∀ k ∈ shadowSet, k.same s t) ∧
  (∀ s : State, ∃ t : State, exec .exAFAF s = .next t ∧ t.a = s.aAlt ∧ t.f = s.fAlt ∧ t.aAlt = s.a ∧ t.fAlt = s.f ∧
    Unchanged (.a :: .aAlt :: .fAlt :: allFlags) s t) ∧
  (∀ s : State, ∃ t : State, exec .exx s = .next t ∧ t.b = s.bAlt ∧ t.c = s.cAlt ∧ t.d = s.dAlt ∧ t.e = s.eAlt ∧ t.h = s.hAlt ∧
    t.l = s.lAlt ∧ t.bAlt = s.b ∧ t.cAlt = s.c ∧ t.dAlt = s.d ∧ t.eAlt = s.e ∧ t.hAlt = s.h ∧ t.lAlt = s.l ∧
    Unchanged [.b, .c, .d, .e, .h, .l, .bAlt, .cAlt, .dAlt, .eAlt, .hAlt, .lAlt] s t)

/-- R33: no other instruction reads the shadow set: under the same draws and the same port answers, what it does is the same
whatever the shadow set holds. That unspecified values follow the draw counter (log 4) and port bytes the trace (log 5) is
the model's choice, and nothing is claimed of them. -/
def Obligations.ShadowSetNeverRead : Prop :=
  ∀ (i : Instr) (s from_ : State), i ≠ .exAFAF → i ≠ .exx →
    exec i (s.withShadowOf from_) = mapNext (fun t => t.withShadowOf from_) (exec i s)

/-- R36, R38, R39, R396: in its execute phase only `LD I,A` changes I, only `LD R,A` changes R, only JP, JR, DJNZ, CALL,
RET, RST, RETI and RETN change PC, and only HALT changes the run status. -/
def Obligations.WritersOfPcStatusIAndR : Prop :=
  ∀ (i : Instr) (s t : State), exec i s = .next t →
    (t.i ≠ s.i → i = .ldIA) ∧ (t.r ≠ s.r → i = .ldRA) ∧
    (t.pc ≠ s.pc →
      (∃ nn, i = .jp nn) ∨ (∃ cc nn, i = .jpCC cc nn) ∨ i = .jpHL ∨ i = .jpIX ∨ i = .jpIY ∨ (∃ e, i = .jr e) ∨
      (∃ cc e, i = .jrCC cc e) ∨ (∃ e, i = .djnz e) ∨ (∃ nn, i = .call nn) ∨ (∃ cc nn, i = .callCC cc nn) ∨ i = .ret ∨
      (∃ cc, i = .retCC cc) ∨ (∃ n, i = .rst n) ∨ i = .reti ∨ i = .retn) ∧
    (t.status ≠ s.status → i = .halt)

/-- R34, R35: SP is changed only by the loads of SP, INC SP, DEC SP and the stack instructions; IX only by DD-prefixed and
IY only by FD-prefixed instructions. -/
def Obligations.WritersOfSpIxIy : Prop :=
  ∀ (i : Instr) (s t : State), exec i s = .next t →
    (t.sp ≠ s.sp →
      i = .ldSPHL ∨ (∃ nn, i = .ldSSNN .sp nn) ∨ (∃ nn, i = .ldSSAtNN .sp nn) ∨ i = .ldSPIX ∨ i = .ldSPIY ∨
      i = .incSS .sp ∨ i = .decSS .sp ∨ (∃ qq, i = .pushQQ qq) ∨ (∃ qq, i = .popQQ qq) ∨ i = .pushIX ∨ i = .pushIY ∨
      i = .popIX ∨ i = .popIY ∨ (∃ nn, i = .call nn) ∨ (∃ cc nn, i = .callCC cc nn) ∨ i = .ret ∨ (∃ cc, i = .retCC cc) ∨
      (∃ n, i = .rst n) ∨ i = .reti ∨ i = .retn) ∧
    (t.ix ≠ s.ix → (encode i).head? = some 0xDD) ∧ (t.iy ≠ s.iy → (encode i).head? = some 0xFD)

/-- R70, R410, R411: the I/O trace only grows, at its end, and only by the instructions of 49_io.md. -/
def Obligations.TraceGrowsByIoOnly : Prop :=
  ∀ (i : Instr) (s t : State), exec i s = .next t →
    (∃ events, t.ioTrace = s.ioTrace ++ events) ∧
    (t.ioTrace ≠ s.ioTrace →
      (∃ n, i = .inAAtN n) ∨ (∃ n, i = .outAtNA n) ∨ (∃ rd, i = .inRAtC rd) ∨ (∃ rs, i = .outAtCR rs) ∨ i = .ini ∨
      i = .ind ∨ i = .inir ∨ i = .indr ∨ i = .outi ∨ i = .outd ∨ i = .otir ∨ i = .otdr)

/-! ## Register fields, addresses, conditions -/

/-- R32, R37, R40, R41, R42, R43: a pair is its two bytes, the first the high one; each code of a field names its register;
a field reads back what was written through it and leaves the other registers alone; F is one byte, S its bit 7 and C its
bit 0. -/
def Obligations.RegisterViews : Prop :=
  (∀ s : State, s.bc.toNat = s.b.toNat * 256 + s.c.toNat ∧ s.de.toNat = s.d.toNat * 256 + s.e.toNat ∧
    s.hl.toNat = s.h.toNat * 256 + s.l.toNat ∧ s.af.toNat = s.a.toNat * 256 + s.f.toByte.toNat) ∧
  (∀ s : State, s.getR .b = s.b ∧ s.getR .c = s.c ∧ s.getR .d = s.d ∧ s.getR .e = s.e ∧ s.getR .h = s.h ∧ s.getR .l = s.l ∧
    s.getR .a = s.a) ∧
  (∀ s : State, s.getSS .bc = s.bc ∧ s.getSS .de = s.de ∧ s.getSS .hl = s.hl ∧ s.getSS .sp = s.sp) ∧
  (∀ s : State, s.getQQ .bc = s.bc ∧ s.getQQ .de = s.de ∧ s.getQQ .hl = s.hl ∧ s.getQQ .af = s.af) ∧
  (∀ s : State, s.getPP .bc = s.bc ∧ s.getPP .de = s.de ∧ s.getPP .ix = s.ix ∧ s.getPP .sp = s.sp) ∧
  (∀ s : State, s.getRR .bc = s.bc ∧ s.getRR .de = s.de ∧ s.getRR .iy = s.iy ∧ s.getRR .sp = s.sp) ∧
  (∀ (s : State) (k other : Reg) (v : Byte), (s.setR k v).getR other = if other = k then v else s.getR other) ∧
  (∀ (s : State) (k other : RegSS) (v : Word), (s.setSS k v).getSS other = if other = k then v else s.getSS other) ∧
  (∀ (s : State) (k other : RegQQ) (v : Word), (s.setQQ k v).getQQ other = if other = k then v else s.getQQ other) ∧
  (∀ (s : State) (k : Reg) (v : Byte), Unchanged [k.field] s (s.setR k v)) ∧
  (∀ (s : State) (k : RegSS) (v : Word), Unchanged k.fields s (s.setSS k v)) ∧
  (∀ (s : State) (k : RegQQ) (v : Word), Unchanged k.fields s (s.setQQ k v)) ∧
  (∀ g : Flags, Flags.ofByte g.toByte = g ∧ g.toByte.getLsbD 7 = g.s ∧ g.toByte.getLsbD 6 = g.z ∧
    g.toByte.getLsbD 5 = g.x5 ∧ g.toByte.getLsbD 4 = g.h ∧ g.toByte.getLsbD 3 = g.x3 ∧ g.toByte.getLsbD 2 = g.pv ∧
    g.toByte.getLsbD 1 = g.n ∧ g.toByte.getLsbD 0 = g.c) ∧
  (∀ v : Byte, (Flags.ofByte v).toByte = v)

/-- R113, R114, R176: the address of `(IX+d)`, `(IY+d)` and the target of a relative jump are the base plus the signed
displacement, mod 2^16. -/
def Obligations.DisplacementsAreSigned : Prop :=
  ∀ (s : State) (d : Byte),
    ((s.eaIX d).toNat : Int) = (s.ix.toNat + d.toInt) % 65536 ∧
    ((s.eaIY d).toNat : Int) = (s.iy.toNat + d.toInt) % 65536 ∧
    ((s.relTarget d).toNat : Int) = (s.pc.toNat + d.toInt) % 65536

/-- R155, R117, R351: the condition of each code, NZ, Z, NC, C, PO, PE, P, M from 0 to 7, the first four for JR. -/
def Obligations.ConditionsTestTheirFlags : Prop :=
  ∀ s : State,
    s.cond (Cond.ofCode 0) = !s.f.z ∧ s.cond (Cond.ofCode 1) = s.f.z ∧ s.cond (Cond.ofCode 2) = !s.f.c ∧
    s.cond (Cond.ofCode 3) = s.f.c ∧ s.cond (Cond.ofCode 4) = !s.f.pv ∧ s.cond (Cond.ofCode 5) = s.f.pv ∧
    s.cond (Cond.ofCode 6) = !s.f.s ∧ s.cond (Cond.ofCode 7) = s.f.s ∧
    (∀ cc : CondJR, s.condJR cc = s.cond (Cond.ofCode cc.code))

/-! ## Loads, stores, stack -/

/-- R171 to R185: the 8-bit loads into a register complete with the byte loaded and change nothing else. -/
def Obligations.ByteLoads : Prop :=
  ∀ (s : State) (rd rs : Reg) (n d : Byte) (nn : Word),
    ∀ load ∈ [(Instr.ldRR rd rs, rd, s.getR rs), (.ldRN rd n, rd, n), (.ldRAtHL rd, rd, s.readByte s.hl),
        (.ldRAtIX rd d, rd, s.readByte (s.eaIX d)), (.ldRAtIY rd d, rd, s.readByte (s.eaIY d)),
        (.ldAAtBC, .a, s.readByte s.bc), (.ldAAtDE, .a, s.readByte s.de), (.ldAAtNN nn, .a, s.readByte nn)],
      ∃ t : State, exec load.1 s = .next t ∧ t.getR load.2.1 = load.2.2 ∧ Unchanged [load.2.1.field] s t

/-- R174 to R185: the 8-bit stores complete with the byte at their address, every other byte and all else as before. -/
def Obligations.ByteStores : Prop :=
  ∀ (s : State) (rs : Reg) (n d : Byte) (nn : Word),
    ∀ store ∈ [(Instr.ldAtHLR rs, s.hl, s.getR rs), (.ldAtHLN n, s.hl, n), (.ldAtIXR d rs, s.eaIX d, s.getR rs),
        (.ldAtIYR d rs, s.eaIY d, s.getR rs), (.ldAtIXN d n, s.eaIX d, n), (.ldAtIYN d n, s.eaIY d, n),
        (.ldAtBCA, s.bc, s.a), (.ldAtDEA, s.de, s.a), (.ldAtNNA nn, nn, s.a)],
      ∃ t : State, exec store.1 s = .next t ∧ t.readByte store.2.1 = store.2.2 ∧ MemoryOutside [store.2.1] s t ∧
        Unchanged [.memory] s t

/-- R186, R187, R194, R195: the 16-bit loads from an immediate or a register. -/
def Obligations.WordRegisterLoads : Prop :=
  ∀ (s : State) (ss : RegSS) (nn : Word),
    (∃ t : State, exec (.ldSSNN ss nn) s = .next t ∧ t.getSS ss = nn ∧ Unchanged ss.fields s t) ∧
    (∃ t : State, exec (.ldIXNN nn) s = .next t ∧ t.ix = nn ∧ Unchanged [.ix] s t) ∧
    (∃ t : State, exec (.ldIYNN nn) s = .next t ∧ t.iy = nn ∧ Unchanged [.iy] s t) ∧
    (∃ t : State, exec .ldSPHL s = .next t ∧ t.sp.toNat = s.h.toNat * 256 + s.l.toNat ∧ Unchanged [.sp] s t) ∧
    (∃ t : State, exec .ldSPIX s = .next t ∧ t.sp = s.ix ∧ Unchanged [.sp] s t) ∧
    (∃ t : State, exec .ldSPIY s = .next t ∧ t.sp = s.iy ∧ Unchanged [.sp] s t)

/-- R72, R74, R188, R190, R192: the 16-bit loads from memory, low byte at the lower address. -/
def Obligations.WordMemoryLoads : Prop :=
  ∀ (s : State) (ss : RegSS) (nn : Word), s.wordAllowed nn →
    (∃ t : State, exec (.ldHLAtNN nn) s = .next t ∧ t.l = s.readByte nn ∧ t.h = s.readByte (nn + 1) ∧ Unchanged [.h, .l] s t) ∧
    (∃ t : State, exec (.ldSSAtNN ss nn) s = .next t ∧
      (t.getSS ss).toNat = (s.readByte (nn + 1)).toNat * 256 + (s.readByte nn).toNat ∧ Unchanged ss.fields s t) ∧
    (∃ t : State, exec (.ldIXAtNN nn) s = .next t ∧
      t.ix.toNat = (s.readByte (nn + 1)).toNat * 256 + (s.readByte nn).toNat ∧ Unchanged [.ix] s t) ∧
    (∃ t : State, exec (.ldIYAtNN nn) s = .next t ∧
      t.iy.toNat = (s.readByte (nn + 1)).toNat * 256 + (s.readByte nn).toNat ∧ Unchanged [.iy] s t)

/-- R72, R75, R189, R191, R193: the 16-bit stores, low byte at the lower address, every other byte as before. -/
def Obligations.WordMemoryStores : Prop :=
  ∀ (s : State) (ss : RegSS) (nn : Word), s.wordAllowed nn →
    ∀ store ∈ [(Instr.ldAtNNHL nn, s.hl), (.ldAtNNSS nn ss, s.getSS ss), (.ldAtNNIX nn, s.ix), (.ldAtNNIY nn, s.iy)],
      ∃ t : State, exec store.1 s = .next t ∧ (t.readByte nn).toNat = store.2.toNat % 256 ∧
        (t.readByte (nn + 1)).toNat = store.2.toNat / 256 ∧ MemoryOutside [nn, nn + 1] s t ∧ Unchanged [.memory] s t

/-- R206, R208: a push moves SP down by 2 and leaves the high byte at SP+1 and the low byte at SP. -/
def Obligations.PushesStoreAWord : Prop :=
  ∀ (s : State) (qq : RegQQ), s.wordAllowed (s.sp - 2) →
    ∀ push ∈ [(Instr.pushQQ qq, s.getQQ qq), (.pushIX, s.ix), (.pushIY, s.iy)],
      ∃ t : State, exec push.1 s = .next t ∧ t.sp = s.sp - 2 ∧ (t.readByte (s.sp - 1)).toNat = push.2.toNat / 256 ∧
        (t.readByte (s.sp - 2)).toNat = push.2.toNat % 256 ∧ MemoryOutside [s.sp - 1, s.sp - 2] s t ∧
        Unchanged [.sp, .memory] s t

/-- R207, R209: a pop takes the low byte at SP and the high byte at SP+1 and moves SP up by 2; `POP AF` loads all eight
bits of F. -/
def Obligations.PopsLoadAWord : Prop :=
  ∀ (s : State) (qq : RegQQ), s.wordAllowed s.sp →
    (∃ t : State, exec (.popQQ qq) s = .next t ∧ t.sp = s.sp + 2 ∧
      (t.getQQ qq).toNat = (s.readByte (s.sp + 1)).toNat * 256 + (s.readByte s.sp).toNat ∧
      Unchanged (.sp :: qq.fields) s t) ∧
    (∃ t : State, exec .popIX s = .next t ∧ t.sp = s.sp + 2 ∧
      t.ix.toNat = (s.readByte (s.sp + 1)).toNat * 256 + (s.readByte s.sp).toNat ∧ Unchanged [.sp, .ix] s t) ∧
    (∃ t : State, exec .popIY s = .next t ∧ t.sp = s.sp + 2 ∧
      t.iy.toNat = (s.readByte (s.sp + 1)).toNat * 256 + (s.readByte s.sp).toNat ∧ Unchanged [.sp, .iy] s t)

/-- R210: PUSH qq then POP qq' copies qq into qq' and restores SP, across the wrap as well; and the source's scenario of
four pushes and four pops in reverse restores SP and the four pairs. -/
def Obligations.PushThenPop : Prop :=
  (∀ (s : State) (qq qq' : RegQQ), s.wordAllowed (s.sp - 2) →
    ∃ t : State, execAll [.pushQQ qq, .popQQ qq'] s = .next t ∧ t.getQQ qq' = s.getQQ qq ∧ t.sp = s.sp) ∧
  (∀ s : State, (∀ k ∈ [2, 4, 6, 8], s.wordAllowed (s.sp - BitVec.ofNat 16 k)) →
    ∃ t : State, execAll [.pushQQ .bc, .pushQQ .de, .pushQQ .hl, .pushQQ .af, .popQQ .af, .popQQ .hl, .popQQ .de, .popQQ .bc] s
        = .next t ∧
      t.sp = s.sp ∧ t.bc = s.bc ∧ t.de = s.de ∧ t.hl = s.hl ∧ t.af = s.af)

/-- R76: with `WRAP_FFFF = fault`, a word access that crosses from 0xFFFF to 0x0000 is refused. Which accesses count is
the model's reading (log 13). -/
def Obligations.CrossingWordAccessRefused : Prop :=
  ∀ (s : State) (ss : RegSS) (qq : RegQQ) (cc : Cond) (n : Fin 8) (nn : Word), s.params.wrapFfff = .fault →
    (∀ i ∈ [Instr.ldHLAtNN 0xFFFF, .ldAtNNHL 0xFFFF, .ldSSAtNN ss 0xFFFF, .ldAtNNSS 0xFFFF ss, .ldIXAtNN 0xFFFF,
        .ldIYAtNN 0xFFFF, .ldAtNNIX 0xFFFF, .ldAtNNIY 0xFFFF], exec i s = .refused .wrapsAtTop) ∧
    (s.sp = 0x0001 → ∀ i ∈ [Instr.pushQQ qq, .pushIX, .pushIY, .call nn, .rst n], exec i s = .refused .wrapsAtTop) ∧
    (s.sp = 0x0001 → s.cond cc = true → exec (.callCC cc nn) s = .refused .wrapsAtTop) ∧
    (s.sp = 0xFFFF → ∀ i ∈ [Instr.popQQ qq, .popIX, .popIY, .ret, .reti, .retn, .exAtSPHL, .exAtSPIX, .exAtSPIY],
      exec i s = .refused .wrapsAtTop) ∧
    (s.sp = 0xFFFF → s.cond cc = true → exec (.retCC cc) s = .refused .wrapsAtTop)

/-- R202 to R205, R36: the loads of I and R. `LD A,I` and `LD A,R` set S and Z from the byte, clear H and N and leave
Carry; of PV nothing is said, nor of the byte `LD A,R` loads under `R_READ = any`. -/
def Obligations.LoadsOfIAndR : Prop :=
  ∀ s : State,
    (∃ t : State, exec .ldIA s = .next t ∧ t.i = s.a ∧ Unchanged [.i] s t) ∧
    (∃ t : State, exec .ldRA s = .next t ∧ t.r = s.a ∧ Unchanged [.r] s t) ∧
    (∃ t : State, exec .ldAI s = .next t ∧ t.a = s.i ∧ (t.f.s = true ↔ 128 ≤ t.a.toNat) ∧ (t.f.z = true ↔ t.a.toNat = 0) ∧
      t.f.h = false ∧ t.f.n = false ∧ Unchanged (withUnspecified [.a, .flagS, .flagZ, .flagH, .flagPV, .flagN]) s t) ∧
    (∃ t : State, exec .ldAR s = .next t ∧ (s.params.rRead = .perByte → t.a = s.r) ∧ (t.f.s = true ↔ 128 ≤ t.a.toNat) ∧
      (t.f.z = true ↔ t.a.toNat = 0) ∧ t.f.h = false ∧ t.f.n = false ∧
      Unchanged (withUnspecified [.a, .flagS, .flagZ, .flagH, .flagPV, .flagN]) s t)

/-! ## Block transfer and compare -/

/-- R232, R233: LDI and LDD move one byte and the pointers; PV says whether BC is not yet 0. -/
def Obligations.BlockTransferOnce : Prop :=
  ∀ (s : State), ∀ move ∈ [(Instr.ldi, (1 : Word)), (.ldd, -1)],
    ∃ t : State, exec move.1 s = .next t ∧ t.readByte s.de = s.readByte s.hl ∧ MemoryOutside [s.de] s t ∧
      t.hl = s.hl + move.2 ∧ t.de = s.de + move.2 ∧ t.bc = s.bc - 1 ∧ (t.f.pv = true ↔ t.bc ≠ 0) ∧ t.f.h = false ∧
      t.f.n = false ∧
      Unchanged (withUnspecified [.b, .c, .d, .e, .h, .l, .memory, .flagH, .flagPV, .flagN]) s t

/-- R231, R234, R235, R472: LDIR and LDDR run BC iterations, 65536 from BC = 0, each iteration's read before its write, so
overlapping ranges have the sequential result; bytes outside the destination range are as before. -/
def Obligations.BlockTransferRepeated : Prop :=
  ∀ (s : State), ∀ move ∈ [(Instr.ldir, (1 : Word)), (.lddr, -1)],
    ∃ t : State, exec move.1 s = .next t ∧ (∀ addr, t.readByte addr = copyAfter s move.2 s.countBC addr) ∧
      MemoryOutside ((List.range s.countBC).map (addrAfter s.de move.2)) s t ∧
      t.bc = 0 ∧ t.hl = addrAfter s.hl move.2 s.countBC ∧ t.de = addrAfter s.de move.2 s.countBC ∧
      t.f.pv = false ∧ t.f.h = false ∧ t.f.n = false ∧
      Unchanged (withUnspecified [.b, .c, .d, .e, .h, .l, .memory, .flagH, .flagPV, .flagN]) s t

/-- R236, R237: CPI and CPD compare A with the byte at HL as a subtraction, flags only; PV comes from BC and Carry from
`CPBLK_C`. -/
def Obligations.BlockCompareOnce : Prop :=
  ∀ (s : State), ∀ scan ∈ [(Instr.cpi, (1 : Word)), (.cpd, -1)],
    ∃ t : State, exec scan.1 s = .next t ∧ t.hl = s.hl + scan.2 ∧ t.bc = s.bc - 1 ∧
      (t.f.z = true ↔ s.a = s.readByte s.hl) ∧ (t.f.s = true ↔ 128 ≤ (s.a - s.readByte s.hl).toNat) ∧
      (t.f.h = true ↔ s.a.toNat % 16 < (s.readByte s.hl).toNat % 16) ∧ (t.f.pv = true ↔ t.bc ≠ 0) ∧ t.f.n = true ∧
      (s.params.cpblkC = .compare → (t.f.c = true ↔ s.a.toNat < (s.readByte s.hl).toNat)) ∧
      (s.params.cpblkC = .unchanged → t.f.c = s.f.c) ∧
      Unchanged (withUnspecified (.b :: .c :: .h :: .l :: sixFlags)) s t

/-- R231, R238, R239: CPIR and CPDR run until a match or BC = 0: `k` iterations, none but the last a match, the flags those
of the last comparison. -/
def Obligations.BlockCompareRepeated : Prop :=
  ∀ (s : State), ∀ scan ∈ [(Instr.cpir, (1 : Word)), (.cpdr, -1)],
    ∃ (t : State) (k : Nat), exec scan.1 s = .next t ∧ k < s.countBC ∧
      (∀ j < k, s.readByte (addrAfter s.hl scan.2 j) ≠ s.a) ∧
      (k + 1 = s.countBC ∨ s.readByte (addrAfter s.hl scan.2 k) = s.a) ∧
      t.hl = addrAfter s.hl scan.2 (k + 1) ∧ t.bc = s.bc - BitVec.ofNat 16 (k + 1) ∧
      (t.f.z = true ↔ s.a = s.readByte (addrAfter s.hl scan.2 k)) ∧
      (t.f.s = true ↔ 128 ≤ (s.a - s.readByte (addrAfter s.hl scan.2 k)).toNat) ∧
      (t.f.h = true ↔ s.a.toNat % 16 < (s.readByte (addrAfter s.hl scan.2 k)).toNat % 16) ∧
      (t.f.pv = true ↔ t.bc ≠ 0) ∧ t.f.n = true ∧
      (s.params.cpblkC = .compare → (t.f.c = true ↔ s.a.toNat < (s.readByte (addrAfter s.hl scan.2 k)).toNat)) ∧
      (s.params.cpblkC = .unchanged → t.f.c = s.f.c) ∧
      Unchanged (withUnspecified (.b :: .c :: .h :: .l :: sixFlags)) s t

/-! ## 8-bit arithmetic and logic -/

/-- R142, R144, R251 to R258: ADD and ADC in all ten forms: the sum and all six flags. -/
def Obligations.AddForms : Prop :=
  ∀ (s : State) (rs : Reg) (n d : Byte),
    ∀ add ∈ [(Instr.addAR rs, s.getR rs, false), (.addAN n, n, false), (.addAAtHL, s.readByte s.hl, false),
        (.addAAtIX d, s.readByte (s.eaIX d), false), (.addAAtIY d, s.readByte (s.eaIY d), false),
        (.adcAR rs, s.getR rs, s.f.c), (.adcAN n, n, s.f.c), (.adcAAtHL, s.readByte s.hl, s.f.c),
        (.adcAAtIX d, s.readByte (s.eaIX d), s.f.c), (.adcAAtIY d, s.readByte (s.eaIY d), s.f.c)],
      ∃ t : State, exec add.1 s = .next t ∧ AddsExactly s.params.gen s.a add.2.1 add.2.2 t.a t.f ∧
        Unchanged (withUnspecified (.a :: sixFlags)) s t

/-- R143, R144, R259 to R266, R279 to R282: SUB and SBC in all ten forms: the difference and all six flags, C the borrow;
and CP in all five forms: the flags of SUB, no register written. -/
def Obligations.SubtractAndCompareForms : Prop :=
  ∀ (s : State) (rs : Reg) (n d : Byte),
    (∀ sub ∈ [(Instr.subR rs, s.getR rs, false), (.subN n, n, false), (.subAtHL, s.readByte s.hl, false),
        (.subAtIX d, s.readByte (s.eaIX d), false), (.subAtIY d, s.readByte (s.eaIY d), false),
        (.sbcAR rs, s.getR rs, s.f.c), (.sbcAN n, n, s.f.c), (.sbcAAtHL, s.readByte s.hl, s.f.c),
        (.sbcAAtIX d, s.readByte (s.eaIX d), s.f.c), (.sbcAAtIY d, s.readByte (s.eaIY d), s.f.c)],
      ∃ t : State, exec sub.1 s = .next t ∧ SubtractsExactly s.params.gen s.a sub.2.1 sub.2.2 t.a t.f ∧
        Unchanged (withUnspecified (.a :: sixFlags)) s t) ∧
    (∀ cmp ∈ [(Instr.cpR rs, s.getR rs), (.cpN n, n), (.cpAtHL, s.readByte s.hl), (.cpAtIX d, s.readByte (s.eaIX d)),
        (.cpAtIY d, s.readByte (s.eaIY d))],
      ∃ t : State, exec cmp.1 s = .next t ∧ SubtractsExactly s.params.gen s.a cmp.2 false (s.a - cmp.2) t.f ∧
        (t.f.z = true ↔ s.a = cmp.2) ∧ Unchanged (withUnspecified sixFlags) s t)

/-- R147, R267 to R278: AND, XOR and OR in all fifteen forms, bit by bit, with H set by AND alone, PV the parity in both
generations, and N and C clear. -/
def Obligations.LogicForms : Prop :=
  ∀ (s : State) (rs : Reg) (n d : Byte),
    ∀ operand ∈ [(Instr.andR rs, Instr.xorR rs, Instr.orR rs, s.getR rs), (.andN n, .xorN n, .orN n, n),
        (.andAtHL, .xorAtHL, .orAtHL, s.readByte s.hl), (.andAtIX d, .xorAtIX d, .orAtIX d, s.readByte (s.eaIX d)),
        (.andAtIY d, .xorAtIY d, .orAtIY d, s.readByte (s.eaIY d))],
      (∃ t : State, exec operand.1 s = .next t ∧
        (∀ k < 8, t.a.getLsbD k = (s.a.getLsbD k && operand.2.2.2.getLsbD k)) ∧ ByteFlags t.a t.f ∧ t.f.h = true ∧
        t.f.n = false ∧ t.f.c = false ∧ Unchanged (withUnspecified (.a :: sixFlags)) s t) ∧
      (∃ t : State, exec operand.2.1 s = .next t ∧
        (∀ k < 8, t.a.getLsbD k = (s.a.getLsbD k ^^ operand.2.2.2.getLsbD k)) ∧ ByteFlags t.a t.f ∧ t.f.h = false ∧
        t.f.n = false ∧ t.f.c = false ∧ Unchanged (withUnspecified (.a :: sixFlags)) s t) ∧
      (∃ t : State, exec operand.2.2.1 s = .next t ∧
        (∀ k < 8, t.a.getLsbD k = (s.a.getLsbD k || operand.2.2.2.getLsbD k)) ∧ ByteFlags t.a t.f ∧ t.f.h = false ∧
        t.f.n = false ∧ t.f.c = false ∧ Unchanged (withUnspecified (.a :: sixFlags)) s t)

/-- R145, R146, R283 to R288: INC and DEC of a register or a memory byte; Carry is unchanged. -/
def Obligations.IncrementAndDecrementForms : Prop :=
  ∀ (s : State) (d : Byte),
    (∀ rd : Reg, ∃ t : State, exec (.incR rd) s = .next t ∧ (t.getR rd).toNat = ((s.getR rd).toNat + 1) % 256 ∧
      (t.f.s = true ↔ 128 ≤ (t.getR rd).toNat) ∧ (t.f.z = true ↔ (t.getR rd).toNat = 0) ∧
      (t.f.h = true ↔ (s.getR rd).toNat % 16 = 15) ∧
      PvMeans s.params.gen ((s.getR rd).toNat = 127) (t.getR rd) t.f.pv ∧ t.f.n = false ∧
      Unchanged (withUnspecified [rd.field, .flagS, .flagZ, .flagH, .flagPV, .flagN]) s t) ∧
    (∀ inc ∈ [(Instr.incAtHL, s.hl), (.incAtIX d, s.eaIX d), (.incAtIY d, s.eaIY d)],
      ∃ t : State, exec inc.1 s = .next t ∧ (t.readByte inc.2).toNat = ((s.readByte inc.2).toNat + 1) % 256 ∧
        (t.f.s = true ↔ 128 ≤ (t.readByte inc.2).toNat) ∧ (t.f.z = true ↔ (t.readByte inc.2).toNat = 0) ∧
        (t.f.h = true ↔ (s.readByte inc.2).toNat % 16 = 15) ∧
        PvMeans s.params.gen ((s.readByte inc.2).toNat = 127) (t.readByte inc.2) t.f.pv ∧ t.f.n = false ∧
        MemoryOutside [inc.2] s t ∧
        Unchanged (withUnspecified [.memory, .flagS, .flagZ, .flagH, .flagPV, .flagN]) s t) ∧
    (∀ rd : Reg, ∃ t : State, exec (.decR rd) s = .next t ∧ (t.getR rd).toNat = ((s.getR rd).toNat + 255) % 256 ∧
      (t.f.s = true ↔ 128 ≤ (t.getR rd).toNat) ∧ (t.f.z = true ↔ (t.getR rd).toNat = 0) ∧
      (t.f.h = true ↔ (s.getR rd).toNat % 16 = 0) ∧
      PvMeans s.params.gen ((s.getR rd).toNat = 128) (t.getR rd) t.f.pv ∧ t.f.n = true ∧
      Unchanged (withUnspecified [rd.field, .flagS, .flagZ, .flagH, .flagPV, .flagN]) s t) ∧
    (∀ dec ∈ [(Instr.decAtHL, s.hl), (.decAtIX d, s.eaIX d), (.decAtIY d, s.eaIY d)],
      ∃ t : State, exec dec.1 s = .next t ∧ (t.readByte dec.2).toNat = ((s.readByte dec.2).toNat + 255) % 256 ∧
        (t.f.s = true ↔ 128 ≤ (t.readByte dec.2).toNat) ∧ (t.f.z = true ↔ (t.readByte dec.2).toNat = 0) ∧
        (t.f.h = true ↔ (s.readByte dec.2).toNat % 16 = 0) ∧
        PvMeans s.params.gen ((s.readByte dec.2).toNat = 128) (t.readByte dec.2) t.f.pv ∧ t.f.n = true ∧
        MemoryOutside [dec.2] s t ∧
        Unchanged (withUnspecified [.memory, .flagS, .flagZ, .flagH, .flagPV, .flagN]) s t)

/-- R156: subtracting what was added gives back the first operand, in both generations. -/
def Obligations.SubtractUndoesAdd : Prop :=
  ∀ (g : Gen) (a b : Byte), (sub8 g (add8 g a b false).res b false).res = a

/-! ## 16-bit arithmetic -/

/-- R148, R291, R296: ADD HL,ss, ADD IX,pp and ADD IY,rr: the sum, H from bit 11, N clear, C from bit 15; S, Z and PV
unchanged. -/
def Obligations.WordAdds : Prop :=
  ∀ (s : State) (ss : RegSS) (pp : RegPP) (rr : RegRR),
    (∃ t : State, exec (.addHLSS ss) s = .next t ∧ t.hl.toNat = (s.hl.toNat + (s.getSS ss).toNat) % 65536 ∧
      (t.f.h = true ↔ 4096 ≤ s.hl.toNat % 4096 + (s.getSS ss).toNat % 4096) ∧ t.f.n = false ∧
      (t.f.c = true ↔ 65536 ≤ s.hl.toNat + (s.getSS ss).toNat) ∧
      Unchanged (withUnspecified [.h, .l, .flagH, .flagN, .flagC]) s t) ∧
    (∃ t : State, exec (.addIXPP pp) s = .next t ∧ t.ix.toNat = (s.ix.toNat + (s.getPP pp).toNat) % 65536 ∧
      (t.f.h = true ↔ 4096 ≤ s.ix.toNat % 4096 + (s.getPP pp).toNat % 4096) ∧ t.f.n = false ∧
      (t.f.c = true ↔ 65536 ≤ s.ix.toNat + (s.getPP pp).toNat) ∧
      Unchanged (withUnspecified [.ix, .flagH, .flagN, .flagC]) s t) ∧
    (∃ t : State, exec (.addIYRR rr) s = .next t ∧ t.iy.toNat = (s.iy.toNat + (s.getRR rr).toNat) % 65536 ∧
      (t.f.h = true ↔ 4096 ≤ s.iy.toNat % 4096 + (s.getRR rr).toNat % 4096) ∧ t.f.n = false ∧
      (t.f.c = true ↔ 65536 ≤ s.iy.toNat + (s.getRR rr).toNat) ∧
      Unchanged (withUnspecified [.iy, .flagH, .flagN, .flagC]) s t)

/-- R149, R150, R292, R293: ADC HL,ss and SBC HL,ss: the result and all six flags, PV the signed overflow. -/
def Obligations.WordCarryArithmetic : Prop :=
  ∀ (s : State) (ss : RegSS),
    (∃ t : State, exec (.adcHLSS ss) s = .next t ∧ t.hl.toNat = (s.hl.toNat + (s.getSS ss).toNat + s.f.c.toNat) % 65536 ∧
      (t.f.s = true ↔ 32768 ≤ t.hl.toNat) ∧ (t.f.z = true ↔ t.hl.toNat = 0) ∧
      (t.f.h = true ↔ 4096 ≤ s.hl.toNat % 4096 + (s.getSS ss).toNat % 4096 + s.f.c.toNat) ∧
      (t.f.pv = true ↔ t.hl.toInt ≠ s.hl.toInt + (s.getSS ss).toInt + s.f.c.toNat) ∧ t.f.n = false ∧
      (t.f.c = true ↔ 65536 ≤ s.hl.toNat + (s.getSS ss).toNat + s.f.c.toNat) ∧
      Unchanged (withUnspecified (.h :: .l :: sixFlags)) s t) ∧
    (∃ t : State, exec (.sbcHLSS ss) s = .next t ∧
      (t.hl.toNat : Int) = ((s.hl.toNat : Int) - (s.getSS ss).toNat - s.f.c.toNat) % 65536 ∧
      (t.f.s = true ↔ 32768 ≤ t.hl.toNat) ∧ (t.f.z = true ↔ t.hl.toNat = 0) ∧
      (t.f.h = true ↔ s.hl.toNat % 4096 < (s.getSS ss).toNat % 4096 + s.f.c.toNat) ∧
      (t.f.pv = true ↔ t.hl.toInt ≠ s.hl.toInt - (s.getSS ss).toInt - s.f.c.toNat) ∧ t.f.n = true ∧
      (t.f.c = true ↔ s.hl.toNat < (s.getSS ss).toNat + s.f.c.toNat) ∧
      Unchanged (withUnspecified (.h :: .l :: sixFlags)) s t)

/-- R157, R294, R295, R297, R298: INC and DEC of a pair wrap mod 2^16 and touch no flag. -/
def Obligations.WordIncrements : Prop :=
  ∀ (s : State) (ss : RegSS),
    (∃ t : State, exec (.incSS ss) s = .next t ∧ (t.getSS ss).toNat = ((s.getSS ss).toNat + 1) % 65536 ∧
      Unchanged ss.fields s t) ∧
    (∃ t : State, exec (.decSS ss) s = .next t ∧ (t.getSS ss).toNat = ((s.getSS ss).toNat + 65535) % 65536 ∧
      Unchanged ss.fields s t) ∧
    (∃ t : State, exec .incIX s = .next t ∧ t.ix.toNat = (s.ix.toNat + 1) % 65536 ∧ Unchanged [.ix] s t) ∧
    (∃ t : State, exec .decIX s = .next t ∧ t.ix.toNat = (s.ix.toNat + 65535) % 65536 ∧ Unchanged [.ix] s t) ∧
    (∃ t : State, exec .incIY s = .next t ∧ t.iy.toNat = (s.iy.toNat + 1) % 65536 ∧ Unchanged [.iy] s t) ∧
    (∃ t : State, exec .decIY s = .next t ∧ t.iy.toNat = (s.iy.toNat + 65535) % 65536 ∧ Unchanged [.iy] s t)

/-! ## Rotates, shifts, bits -/

/-- R151, R301 to R304, R307 (a), R308 to R328: RLCA, RRCA, RLA and RRA rotate A and write C, H and N only; the seven
rotates and shifts of a register write all six flags. -/
def Obligations.RegisterRotates : Prop :=
  ∀ (s : State) (rs : Reg),
    (∀ rot ∈ [(Instr.rlca, RotKind.rlc), (.rrca, .rrc), (.rla, .rl), (.rra, .rr)],
      ∃ t : State, exec rot.1 s = .next t ∧ RotatesTo rot.2 s.a s.f.c t.a t.f.c ∧ t.f.h = false ∧ t.f.n = false ∧
        Unchanged (withUnspecified [.a, .flagH, .flagN, .flagC]) s t) ∧
    (∀ rot ∈ [(Instr.rlcR rs, RotKind.rlc), (.rrcR rs, .rrc), (.rlR rs, .rl), (.rrR rs, .rr), (.slaR rs, .sla),
        (.sraR rs, .sra), (.srlR rs, .srl)],
      ∃ t : State, exec rot.1 s = .next t ∧ RotatesTo rot.2 (s.getR rs) s.f.c (t.getR rs) t.f.c ∧ ByteFlags (t.getR rs) t.f ∧
        t.f.h = false ∧ t.f.n = false ∧ Unchanged (withUnspecified (rs.field :: sixFlags)) s t)

/-- R151, R307 (a), R309 to R328: the seven rotates and shifts of a memory byte, at HL and at the indexed addresses. -/
def Obligations.MemoryRotates : Prop :=
  ∀ (s : State) (d : Byte),
    ∀ rot ∈ [(Instr.rlcAtHL, RotKind.rlc, s.hl), (.rrcAtHL, .rrc, s.hl), (.rlAtHL, .rl, s.hl), (.rrAtHL, .rr, s.hl),
        (.slaAtHL, .sla, s.hl), (.sraAtHL, .sra, s.hl), (.srlAtHL, .srl, s.hl),
        (.rlcAtIX d, .rlc, s.eaIX d), (.rrcAtIX d, .rrc, s.eaIX d), (.rlAtIX d, .rl, s.eaIX d),
        (.rrAtIX d, .rr, s.eaIX d), (.slaAtIX d, .sla, s.eaIX d), (.sraAtIX d, .sra, s.eaIX d),
        (.srlAtIX d, .srl, s.eaIX d),
        (.rlcAtIY d, .rlc, s.eaIY d), (.rrcAtIY d, .rrc, s.eaIY d), (.rlAtIY d, .rl, s.eaIY d),
        (.rrAtIY d, .rr, s.eaIY d), (.slaAtIY d, .sla, s.eaIY d), (.sraAtIY d, .sra, s.eaIY d),
        (.srlAtIY d, .srl, s.eaIY d)],
      ∃ t : State, exec rot.1 s = .next t ∧ RotatesTo rot.2.1 (s.readByte rot.2.2) s.f.c (t.readByte rot.2.2) t.f.c ∧
        ByteFlags (t.readByte rot.2.2) t.f ∧ t.f.h = false ∧ t.f.n = false ∧ MemoryOutside [rot.2.2] s t ∧
        Unchanged (withUnspecified (.memory :: sixFlags)) s t

/-- R305, R306: RRD and RLD move the three low and middle nibbles of A and (HL) round; the high nibble of A stays; three
RRDs restore A and the byte. -/
def Obligations.DigitRotates : Prop :=
  ∀ s : State,
    (∃ t : State, exec .rrd s = .next t ∧ t.a.toNat = s.a.toNat / 16 * 16 + (s.readByte s.hl).toNat % 16 ∧
      (t.readByte s.hl).toNat = s.a.toNat % 16 * 16 + (s.readByte s.hl).toNat / 16 ∧ ByteFlags t.a t.f ∧ t.f.h = false ∧
      t.f.n = false ∧ MemoryOutside [s.hl] s t ∧
      Unchanged (withUnspecified [.a, .memory, .flagS, .flagZ, .flagH, .flagPV, .flagN]) s t) ∧
    (∃ t : State, exec .rld s = .next t ∧ t.a.toNat = s.a.toNat / 16 * 16 + (s.readByte s.hl).toNat / 16 ∧
      (t.readByte s.hl).toNat = (s.readByte s.hl).toNat % 16 * 16 + s.a.toNat % 16 ∧ ByteFlags t.a t.f ∧ t.f.h = false ∧
      t.f.n = false ∧ MemoryOutside [s.hl] s t ∧
      Unchanged (withUnspecified [.a, .memory, .flagS, .flagZ, .flagH, .flagPV, .flagN]) s t) ∧
    (∃ t : State, execAll [.rrd, .rrd, .rrd] s = .next t ∧ t.a = s.a ∧ ∀ addr, t.readByte addr = s.readByte addr)

/-- R307 (b), (c), R330 to R338: BIT sets Z to the complement of the tested bit, H to 1 and N to 0 and leaves Carry; of S
and PV nothing is said; no register and no memory changes. SET and RES write one bit, leave the seven others, and change
no flag. -/
def Obligations.BitInstructions : Prop :=
  ∀ (s : State) (b : Fin 8) (rs : Reg) (d : Byte),
    (∀ test ∈ [(Instr.bitR b rs, s.getR rs), (.bitAtHL b, s.readByte s.hl), (.bitAtIX b d, s.readByte (s.eaIX d)),
        (.bitAtIY b d, s.readByte (s.eaIY d))],
      ∃ t : State, exec test.1 s = .next t ∧ (t.f.z = true ↔ test.2.toNat / 2 ^ b.val % 2 = 0) ∧ t.f.h = true ∧ t.f.n = false ∧
        Unchanged (withUnspecified [.flagS, .flagZ, .flagH, .flagPV, .flagN]) s t) ∧
    (∀ write ∈ [(Instr.setR b rs, true), (.resR b rs, false)],
      ∃ t : State, exec write.1 s = .next t ∧
        (∀ k < 8, (t.getR rs).getLsbD k = if k = b.val then write.2 else (s.getR rs).getLsbD k) ∧
        Unchanged [rs.field] s t) ∧
    (∀ write ∈ [(Instr.setAtHL b, true, s.hl), (.resAtHL b, false, s.hl), (.setAtIX b d, true, s.eaIX d),
        (.resAtIX b d, false, s.eaIX d), (.setAtIY b d, true, s.eaIY d), (.resAtIY b d, false, s.eaIY d)],
      ∃ t : State, exec write.1 s = .next t ∧
        (∀ k < 8, (t.readByte write.2.2).getLsbD k =
          if k = b.val then write.2.1 else (s.readByte write.2.2).getLsbD k) ∧
        MemoryOutside [write.2.2] s t ∧ Unchanged [.memory] s t)

/-! ## Jumps, calls, returns -/

/-- R352 to R358: the jumps. PC becomes the target, or stays after the instruction where the condition is false; a
relative target is PC plus the signed displacement mod 2^16; DJNZ counts B down and writes no flag. -/
def Obligations.Jumps : Prop :=
  ∀ (s : State) (nn : Word) (cc : Cond) (cj : CondJR) (e : Byte),
    (∃ t : State, exec (.jp nn) s = .next t ∧ t.pc = nn ∧ Unchanged [.pc] s t) ∧
    (∃ t : State, exec (.jpCC cc nn) s = .next t ∧ t.pc = (if s.cond cc = true then nn else s.pc) ∧ Unchanged [.pc] s t) ∧
    (∃ t : State, exec .jpHL s = .next t ∧ t.pc.toNat = s.h.toNat * 256 + s.l.toNat ∧ Unchanged [.pc] s t) ∧
    (∃ t : State, exec .jpIX s = .next t ∧ t.pc = s.ix ∧ Unchanged [.pc] s t) ∧
    (∃ t : State, exec .jpIY s = .next t ∧ t.pc = s.iy ∧ Unchanged [.pc] s t) ∧
    (∃ t : State, exec (.jr e) s = .next t ∧ (t.pc.toNat : Int) = (s.pc.toNat + e.toInt) % 65536 ∧ Unchanged [.pc] s t) ∧
    (∃ t : State, exec (.jrCC cj e) s = .next t ∧
      (s.condJR cj = true → (t.pc.toNat : Int) = (s.pc.toNat + e.toInt) % 65536) ∧
      (s.condJR cj = false → t.pc = s.pc) ∧ Unchanged [.pc] s t) ∧
    (∃ t : State, exec (.djnz e) s = .next t ∧ t.b.toNat = (s.b.toNat + 255) % 256 ∧
      (t.b ≠ 0 → (t.pc.toNat : Int) = (s.pc.toNat + e.toInt) % 65536) ∧ (t.b = 0 → t.pc = s.pc) ∧
      Unchanged [.b, .pc] s t)

/-- R351, R360 to R362, R368: CALL, CALL cc taken, and RST push PC, low byte at the lower address, and go to their target,
8 * t for RST; a CALL cc not taken does nothing in its execute phase. -/
def Obligations.Calls : Prop :=
  ∀ (s : State) (nn : Word) (cc : Cond) (n : Fin 8),
    (s.wordAllowed (s.sp - 2) →
      ∀ call ∈ [(Instr.call nn, nn, true), (.callCC cc nn, nn, s.cond cc), (.rst n, BitVec.ofNat 16 (8 * n.val), true)],
        call.2.2 = true →
        ∃ t : State, exec call.1 s = .next t ∧ t.pc = call.2.1 ∧ t.sp = s.sp - 2 ∧
          (t.readByte (s.sp - 1)).toNat = s.pc.toNat / 256 ∧ (t.readByte (s.sp - 2)).toNat = s.pc.toNat % 256 ∧
          MemoryOutside [s.sp - 1, s.sp - 2] s t ∧ Unchanged [.pc, .sp, .memory] s t) ∧
    (s.cond cc = false → exec (.callCC cc nn) s = .next s)

/-- R351, R360, R363, R364, R369, R370: RET, RET cc taken, RETI and RETN pop PC, and RETI and RETN are plain returns; a
RET cc not taken does nothing in its execute phase. -/
def Obligations.Returns : Prop :=
  ∀ (s : State) (cc : Cond),
    (s.wordAllowed s.sp →
      ∀ ret ∈ [(Instr.ret, true), (.retCC cc, s.cond cc), (.reti, true), (.retn, true)], ret.2 = true →
        ∃ t : State, exec ret.1 s = .next t ∧ t.pc.toNat = (s.readByte (s.sp + 1)).toNat * 256 + (s.readByte s.sp).toNat ∧
          t.sp = s.sp + 2 ∧ Unchanged [.pc, .sp] s t) ∧
    (s.cond cc = false → exec (.retCC cc) s = .next s)

/-! ## Exchanges -/

/-- R381, R384, R385: EX DE,HL swaps the pairs; EX (SP) swaps a register with the word at SP, low byte at the lower
address, and leaves SP. -/
def Obligations.PairAndStackExchanges : Prop :=
  ∀ s : State,
    (∃ t : State, exec .exDEHL s = .next t ∧ t.d = s.h ∧ t.e = s.l ∧ t.h = s.d ∧ t.l = s.e ∧
      Unchanged [.d, .e, .h, .l] s t) ∧
    (s.wordAllowed s.sp →
      (∃ t : State, exec .exAtSPHL s = .next t ∧ t.l = s.readByte s.sp ∧ t.h = s.readByte (s.sp + 1) ∧
        t.readByte s.sp = s.l ∧ t.readByte (s.sp + 1) = s.h ∧ MemoryOutside [s.sp, s.sp + 1] s t ∧
        Unchanged [.h, .l, .memory] s t) ∧
      (∃ t : State, exec .exAtSPIX s = .next t ∧
        t.ix.toNat = (s.readByte (s.sp + 1)).toNat * 256 + (s.readByte s.sp).toNat ∧
        (t.readByte s.sp).toNat = s.ix.toNat % 256 ∧ (t.readByte (s.sp + 1)).toNat = s.ix.toNat / 256 ∧
        MemoryOutside [s.sp, s.sp + 1] s t ∧ Unchanged [.ix, .memory] s t) ∧
      (∃ t : State, exec .exAtSPIY s = .next t ∧
        t.iy.toNat = (s.readByte (s.sp + 1)).toNat * 256 + (s.readByte s.sp).toNat ∧
        (t.readByte s.sp).toNat = s.iy.toNat % 256 ∧ (t.readByte (s.sp + 1)).toNat = s.iy.toNat / 256 ∧
        MemoryOutside [s.sp, s.sp + 1] s t ∧ Unchanged [.iy, .memory] s t))

/-- R386: every exchange is an involution: executed twice it restores the state, memory byte by byte. -/
def Obligations.ExchangesAreInvolutions : Prop :=
  ∀ s : State,
    execAll [.exx, .exx] s = .next s ∧ execAll [.exAFAF, .exAFAF] s = .next s ∧ execAll [.exDEHL, .exDEHL] s = .next s ∧
    (s.wordAllowed s.sp → ∀ i ∈ [Instr.exAtSPHL, .exAtSPIX, .exAtSPIY],
      ∃ t : State, execAll [i, i] s = .next t ∧ Unchanged [] s t)

/-! ## Accumulator and flags -/

/-- R391 to R394: CPL, CCF, SCF and NEG. -/
def Obligations.AccumulatorAndFlagInstructions : Prop :=
  ∀ s : State,
    (∃ t : State, exec .cpl s = .next t ∧ t.a.toNat = 255 - s.a.toNat ∧ t.f.h = true ∧ t.f.n = true ∧
      Unchanged (withUnspecified [.a, .flagH, .flagN]) s t) ∧
    (∃ t : State, exec .ccf s = .next t ∧ t.f.h = s.f.c ∧ t.f.c = !s.f.c ∧ t.f.n = false ∧
      Unchanged (withUnspecified [.flagH, .flagN, .flagC]) s t) ∧
    (∃ t : State, exec .scf s = .next t ∧ t.f.c = true ∧ t.f.h = false ∧ t.f.n = false ∧
      Unchanged (withUnspecified [.flagH, .flagN, .flagC]) s t) ∧
    (∃ t : State, exec .neg s = .next t ∧ SubtractsExactly .z80 0 s.a false t.a t.f ∧ (t.f.c = true ↔ s.a ≠ 0x00) ∧
      (t.f.pv = true ↔ s.a = 0x80) ∧ (t.f.h = true ↔ s.a.toNat % 16 ≠ 0) ∧
      Unchanged (withUnspecified (.a :: sixFlags)) s t)

/-- R152, R153, R395: DAA completes on every input, with S, Z and PV of the result and N unchanged; A is corrected by 0x06
and 0x60 as the digits, H and C ask, added after an addition and taken off after a subtraction; H and C are the rule's on
every input; and on each of the thirteen rows of the table A has the row's addend and C the row's carry. -/
def Obligations.DaaFollowsItsTable : Prop :=
  ∀ s : State, ∃ t : State, exec .daa s = .next t ∧ ByteFlags t.a t.f ∧
    Unchanged (withUnspecified [.a, .flagS, .flagZ, .flagH, .flagPV, .flagC]) s t ∧
    (s.f.n = false → t.a.toNat = (s.a.toNat + daaAdjust s) % 256 ∧ (t.f.h = true ↔ 9 < s.a.toNat % 16)) ∧
    (s.f.n = true → (t.a.toNat : Int) = ((s.a.toNat : Int) - daaAdjust s) % 256 ∧
      (t.f.h = true ↔ s.f.h = true ∧ s.a.toNat % 16 < 6)) ∧
    (t.f.c = true ↔ s.f.c = true ∨ 0x99 < s.a.toNat) ∧
    ∀ row ∈ [(false, false, 0, 9, false, 0, 9, 0x00, false), (false, false, 0, 8, false, 10, 15, 0x06, false),
        (false, false, 0, 9, true, 0, 3, 0x06, false), (false, false, 10, 15, false, 0, 9, 0x60, true),
        (false, false, 9, 15, false, 10, 15, 0x66, true), (false, false, 10, 15, true, 0, 3, 0x66, true),
        (false, true, 0, 2, false, 0, 9, 0x60, true), (false, true, 0, 2, false, 10, 15, 0x66, true),
        (false, true, 0, 3, true, 0, 3, 0x66, true), (true, false, 0, 9, false, 0, 9, 0x00, false),
        (true, false, 0, 8, true, 6, 15, 0xFA, false), (true, true, 7, 15, false, 0, 9, 0xA0, true),
        (true, true, 6, 15, true, 6, 15, 0x9A, true)],
      match row with
      | (nBefore, cBefore, hiMin, hiMax, hBefore, loMin, loMax, addend, cAfter) =>
        s.f.n = nBefore → s.f.c = cBefore → s.f.h = hBefore → hiMin ≤ s.a.toNat / 16 → s.a.toNat / 16 ≤ hiMax →
        loMin ≤ s.a.toNat % 16 → s.a.toNat % 16 ≤ loMax →
        t.a.toNat = (s.a.toNat + addend) % 256 ∧ t.f.c = cAfter

/-- R152, R153, R142, R143: DAA makes binary arithmetic decimal. After ADC of two packed-BCD bytes, DAA leaves the two
digits of the decimal sum and its carry; after SBC, of the decimal difference and its borrow. -/
def Obligations.DaaMakesArithmeticDecimal : Prop :=
  ∀ (s : State) (rs : Reg), IsBcd s.a → IsBcd (s.getR rs) →
    (∃ t : State, execAll [.adcAR rs, .daa] s = .next t ∧ IsBcd t.a ∧
      bcdValue t.a + 100 * t.f.c.toNat = bcdValue s.a + bcdValue (s.getR rs) + s.f.c.toNat) ∧
    (∃ t : State, execAll [.sbcAR rs, .daa] s = .next t ∧ IsBcd t.a ∧
      (bcdValue t.a : Int) - 100 * t.f.c.toNat = (bcdValue s.a : Int) - bcdValue (s.getR rs) - s.f.c.toNat)

/-! ## Input and output -/

/-- R410 to R415: the single port instructions. The byte read is the environment's answer to the port and the trace so
far, of which nothing else is said; each access is one event at the end of the trace. -/
def Obligations.SinglePortTransfers : Prop :=
  ∀ (s : State) (n : Byte) (r : Reg),
    (∃ t : State, exec (.inAAtN n) s = .next t ∧ t.a = Config.ioRead n s.ioTrace ∧ t.ioTrace = s.ioTrace ++ [IoEvent.input n t.a] ∧
      Unchanged [.a, .ioTrace] s t) ∧
    (∃ t : State, exec (.outAtNA n) s = .next t ∧ t.ioTrace = s.ioTrace ++ [IoEvent.output n s.a] ∧ Unchanged [.ioTrace] s t) ∧
    (∃ t : State, exec (.inRAtC r) s = .next t ∧ t.getR r = Config.ioRead s.c s.ioTrace ∧
      t.ioTrace = s.ioTrace ++ [IoEvent.input s.c (t.getR r)] ∧ ByteFlags (t.getR r) t.f ∧ t.f.h = false ∧ t.f.n = false ∧
      Unchanged (withUnspecified [r.field, .ioTrace, .flagS, .flagZ, .flagH, .flagPV, .flagN]) s t) ∧
    (∃ t : State, exec (.outAtCR r) s = .next t ∧ t.ioTrace = s.ioTrace ++ [IoEvent.output s.c (s.getR r)] ∧ Unchanged [.ioTrace] s t)

/-- R416, R417, R420, R421: INI, IND, OUTI and OUTD move one byte between port C and (HL), count B down, set N, and set Z
when B is 0; Carry is unchanged and of S, H and PV nothing is said. -/
def Obligations.BlockPortTransferOnce : Prop :=
  ∀ s : State,
    (∀ move ∈ [(Instr.ini, (1 : Word)), (.ind, -1)],
      ∃ t : State, exec move.1 s = .next t ∧ t.readByte s.hl = Config.ioRead s.c s.ioTrace ∧
        t.ioTrace = s.ioTrace ++ [IoEvent.input s.c (Config.ioRead s.c s.ioTrace)] ∧ MemoryOutside [s.hl] s t ∧
        t.hl = s.hl + move.2 ∧ t.b = s.b - 1 ∧ (t.f.z = true ↔ t.b = 0) ∧ t.f.n = true ∧
        Unchanged (withUnspecified [.b, .h, .l, .memory, .ioTrace, .flagS, .flagZ, .flagH, .flagPV, .flagN]) s t) ∧
    (∀ move ∈ [(Instr.outi, (1 : Word)), (.outd, -1)],
      ∃ t : State, exec move.1 s = .next t ∧ t.ioTrace = s.ioTrace ++ [IoEvent.output s.c (s.readByte s.hl)] ∧
        t.hl = s.hl + move.2 ∧ t.b = s.b - 1 ∧ (t.f.z = true ↔ t.b = 0) ∧ t.f.n = true ∧
        Unchanged (withUnspecified [.b, .h, .l, .ioTrace, .flagS, .flagZ, .flagH, .flagPV, .flagN]) s t)

/-- R231, R418, R419, R422, R423: INIR, INDR, OTIR and OTDR run B iterations, 256 from B = 0, each with its own event in
order; the bytes go to, or come from, successive addresses. -/
def Obligations.BlockPortTransferRepeated : Prop :=
  ∀ s : State,
    (∀ move ∈ [(Instr.inir, (1 : Word)), (.indr, -1)],
      ∃ (t : State) (values : List Byte), exec move.1 s = .next t ∧ values.length = s.countB ∧
        t.ioTrace = s.ioTrace ++ values.map (IoEvent.input s.c) ∧
        (∀ k < s.countB,
          values[k]? = some (Config.ioRead s.c (s.ioTrace ++ (values.take k).map (IoEvent.input s.c))) ∧
          values[k]? = some (t.readByte (addrAfter s.hl move.2 k))) ∧
        MemoryOutside ((List.range s.countB).map (addrAfter s.hl move.2)) s t ∧
        t.hl = addrAfter s.hl move.2 s.countB ∧ t.b = 0 ∧ t.f.z = true ∧ t.f.n = true ∧
        Unchanged (withUnspecified [.b, .h, .l, .memory, .ioTrace, .flagS, .flagZ, .flagH, .flagPV, .flagN]) s t) ∧
    (∀ move ∈ [(Instr.otir, (1 : Word)), (.otdr, -1)],
      ∃ t : State, exec move.1 s = .next t ∧
        t.ioTrace = s.ioTrace ++
          (List.range s.countB).map (fun k => IoEvent.output s.c (s.readByte (addrAfter s.hl move.2 k))) ∧
        t.hl = addrAfter s.hl move.2 s.countB ∧ t.b = 0 ∧ t.f.z = true ∧ t.f.n = true ∧
        Unchanged (withUnspecified [.b, .h, .l, .ioTrace, .flagS, .flagZ, .flagH, .flagPV, .flagN]) s t)

/-! ## The `states` output -/

/-- R475: `states` is a positive number, the same for two executions of one instruction that take the same branch and run
the same number of iterations. The branch is the condition's, or for DJNZ that B is not yet 0. A block transfer runs
`countBC` iterations, a repeated port transfer `countB`, a repeated compare up to the first match or BC = 0, and every other
instruction one. -/
def Obligations.StatesFollowBranchAndIterations : Prop :=
  (∀ (i : Instr) (s : State), 0 < statesOf i s) ∧
  (∀ (i : Instr) (s s' : State), branchTaken i s = branchTaken i s' → iterations i s = iterations i s' →
    statesOf i s = statesOf i s') ∧
  (∀ (s : State) (cc : Cond) (cj : CondJR) (nn : Word) (e : Byte),
    branchTaken (.jpCC cc nn) s = s.cond cc ∧ branchTaken (.callCC cc nn) s = s.cond cc ∧
    branchTaken (.retCC cc) s = s.cond cc ∧ branchTaken (.jrCC cj e) s = s.condJR cj ∧
    (branchTaken (.djnz e) s = true ↔ s.b.toNat ≠ 1)) ∧
  (∀ (s : State), ∀ i ∈ [Instr.ldir, .lddr], iterations i s = s.countBC) ∧
  (∀ (s : State), ∀ i ∈ [Instr.inir, .indr, .otir, .otdr], iterations i s = s.countB) ∧
  (∀ (s : State), ∀ scan ∈ [(Instr.cpir, (1 : Word)), (.cpdr, -1)],
    ∃ k < s.countBC, iterations scan.1 s = k + 1 ∧ (∀ j < k, s.readByte (addrAfter s.hl scan.2 j) ≠ s.a) ∧
      (k + 1 = s.countBC ∨ s.readByte (addrAfter s.hl scan.2 k) = s.a)) ∧
  (∀ (s : State) (i : Instr), i ∉ [Instr.ldir, .lddr, .cpir, .cpdr, .inir, .indr, .otir, .otdr] → iterations i s = 1)

/-! ## The host -/

/-- R21, R24, R88, R436, R463: during a run every move of the host is a fault and every read has no value (log 15). Between
runs its byte and word accessors reach memory, the word pair high byte first and the reversed pair low byte first, both
refused at 0xFFFF (log 23 for the reversed pair); a load past the end of memory is refused (log 22); it reads and writes
every register and sets the parameters; and it starts runs, from `faulted` only after it wrote PC (log 16). -/
def Obligations.HostPortContracts : Prop :=
  ∀ s : State,
    (s.status = .running → s.HostIsShutOut) ∧
    (s.status ≠ .running → s.HostReachesMemory ∧ s.HostLoads ∧ s.HostReachesRegisters ∧ s.HostStartsRuns)
end

