-- ==== Sys2Proof/Laws/State.lean ====
section
/-!
SUPPORT. Laws.State: one lemma per field per update, so that no proof unfolds a record update.
-/
namespace Sys2Proof.Machine

/-! ## writeByte -/

@[simp] theorem State.writeByte_a (s : State) (addr : Word) (v : Byte) : (s.writeByte addr v).a = s.a := rfl
@[simp] theorem State.writeByte_f (s : State) (addr : Word) (v : Byte) : (s.writeByte addr v).f = s.f := rfl
@[simp] theorem State.writeByte_b (s : State) (addr : Word) (v : Byte) : (s.writeByte addr v).b = s.b := rfl
@[simp] theorem State.writeByte_c (s : State) (addr : Word) (v : Byte) : (s.writeByte addr v).c = s.c := rfl
@[simp] theorem State.writeByte_d (s : State) (addr : Word) (v : Byte) : (s.writeByte addr v).d = s.d := rfl
@[simp] theorem State.writeByte_e (s : State) (addr : Word) (v : Byte) : (s.writeByte addr v).e = s.e := rfl
@[simp] theorem State.writeByte_h (s : State) (addr : Word) (v : Byte) : (s.writeByte addr v).h = s.h := rfl
@[simp] theorem State.writeByte_l (s : State) (addr : Word) (v : Byte) : (s.writeByte addr v).l = s.l := rfl
@[simp] theorem State.writeByte_aAlt (s : State) (addr : Word) (v : Byte) : (s.writeByte addr v).aAlt = s.aAlt := rfl
@[simp] theorem State.writeByte_fAlt (s : State) (addr : Word) (v : Byte) : (s.writeByte addr v).fAlt = s.fAlt := rfl
@[simp] theorem State.writeByte_bAlt (s : State) (addr : Word) (v : Byte) : (s.writeByte addr v).bAlt = s.bAlt := rfl
@[simp] theorem State.writeByte_cAlt (s : State) (addr : Word) (v : Byte) : (s.writeByte addr v).cAlt = s.cAlt := rfl
@[simp] theorem State.writeByte_dAlt (s : State) (addr : Word) (v : Byte) : (s.writeByte addr v).dAlt = s.dAlt := rfl
@[simp] theorem State.writeByte_eAlt (s : State) (addr : Word) (v : Byte) : (s.writeByte addr v).eAlt = s.eAlt := rfl
@[simp] theorem State.writeByte_hAlt (s : State) (addr : Word) (v : Byte) : (s.writeByte addr v).hAlt = s.hAlt := rfl
@[simp] theorem State.writeByte_lAlt (s : State) (addr : Word) (v : Byte) : (s.writeByte addr v).lAlt = s.lAlt := rfl
@[simp] theorem State.writeByte_ix (s : State) (addr : Word) (v : Byte) : (s.writeByte addr v).ix = s.ix := rfl
@[simp] theorem State.writeByte_iy (s : State) (addr : Word) (v : Byte) : (s.writeByte addr v).iy = s.iy := rfl
@[simp] theorem State.writeByte_sp (s : State) (addr : Word) (v : Byte) : (s.writeByte addr v).sp = s.sp := rfl
@[simp] theorem State.writeByte_pc (s : State) (addr : Word) (v : Byte) : (s.writeByte addr v).pc = s.pc := rfl
@[simp] theorem State.writeByte_i (s : State) (addr : Word) (v : Byte) : (s.writeByte addr v).i = s.i := rfl
@[simp] theorem State.writeByte_r (s : State) (addr : Word) (v : Byte) : (s.writeByte addr v).r = s.r := rfl
@[simp] theorem State.writeByte_mem (s : State) (addr : Word) (v : Byte) : (s.writeByte addr v).mem = s.mem.write addr.toNat v := rfl
@[simp] theorem State.writeByte_status (s : State) (addr : Word) (v : Byte) : (s.writeByte addr v).status = s.status := rfl
@[simp] theorem State.writeByte_params (s : State) (addr : Word) (v : Byte) : (s.writeByte addr v).params = s.params := rfl
@[simp] theorem State.writeByte_ioTrace (s : State) (addr : Word) (v : Byte) : (s.writeByte addr v).ioTrace = s.ioTrace := rfl
@[simp] theorem State.writeByte_draws (s : State) (addr : Word) (v : Byte) : (s.writeByte addr v).draws = s.draws := rfl

/-! ## writeWord -/

@[simp] theorem State.writeWord_a (s : State) (addr v : Word) : (s.writeWord addr v).a = s.a := rfl
@[simp] theorem State.writeWord_f (s : State) (addr v : Word) : (s.writeWord addr v).f = s.f := rfl
@[simp] theorem State.writeWord_b (s : State) (addr v : Word) : (s.writeWord addr v).b = s.b := rfl
@[simp] theorem State.writeWord_c (s : State) (addr v : Word) : (s.writeWord addr v).c = s.c := rfl
@[simp] theorem State.writeWord_d (s : State) (addr v : Word) : (s.writeWord addr v).d = s.d := rfl
@[simp] theorem State.writeWord_e (s : State) (addr v : Word) : (s.writeWord addr v).e = s.e := rfl
@[simp] theorem State.writeWord_h (s : State) (addr v : Word) : (s.writeWord addr v).h = s.h := rfl
@[simp] theorem State.writeWord_l (s : State) (addr v : Word) : (s.writeWord addr v).l = s.l := rfl
@[simp] theorem State.writeWord_aAlt (s : State) (addr v : Word) : (s.writeWord addr v).aAlt = s.aAlt := rfl
@[simp] theorem State.writeWord_fAlt (s : State) (addr v : Word) : (s.writeWord addr v).fAlt = s.fAlt := rfl
@[simp] theorem State.writeWord_bAlt (s : State) (addr v : Word) : (s.writeWord addr v).bAlt = s.bAlt := rfl
@[simp] theorem State.writeWord_cAlt (s : State) (addr v : Word) : (s.writeWord addr v).cAlt = s.cAlt := rfl
@[simp] theorem State.writeWord_dAlt (s : State) (addr v : Word) : (s.writeWord addr v).dAlt = s.dAlt := rfl
@[simp] theorem State.writeWord_eAlt (s : State) (addr v : Word) : (s.writeWord addr v).eAlt = s.eAlt := rfl
@[simp] theorem State.writeWord_hAlt (s : State) (addr v : Word) : (s.writeWord addr v).hAlt = s.hAlt := rfl
@[simp] theorem State.writeWord_lAlt (s : State) (addr v : Word) : (s.writeWord addr v).lAlt = s.lAlt := rfl
@[simp] theorem State.writeWord_ix (s : State) (addr v : Word) : (s.writeWord addr v).ix = s.ix := rfl
@[simp] theorem State.writeWord_iy (s : State) (addr v : Word) : (s.writeWord addr v).iy = s.iy := rfl
@[simp] theorem State.writeWord_sp (s : State) (addr v : Word) : (s.writeWord addr v).sp = s.sp := rfl
@[simp] theorem State.writeWord_pc (s : State) (addr v : Word) : (s.writeWord addr v).pc = s.pc := rfl
@[simp] theorem State.writeWord_i (s : State) (addr v : Word) : (s.writeWord addr v).i = s.i := rfl
@[simp] theorem State.writeWord_r (s : State) (addr v : Word) : (s.writeWord addr v).r = s.r := rfl
@[simp] theorem State.writeWord_mem (s : State) (addr v : Word) : (s.writeWord addr v).mem = (s.mem.write addr.toNat (loByte v)).write (addr + 1).toNat (hiByte v) := rfl
@[simp] theorem State.writeWord_status (s : State) (addr v : Word) : (s.writeWord addr v).status = s.status := rfl
@[simp] theorem State.writeWord_params (s : State) (addr v : Word) : (s.writeWord addr v).params = s.params := rfl
@[simp] theorem State.writeWord_ioTrace (s : State) (addr v : Word) : (s.writeWord addr v).ioTrace = s.ioTrace := rfl
@[simp] theorem State.writeWord_draws (s : State) (addr v : Word) : (s.writeWord addr v).draws = s.draws := rfl

/-! ## push16 -/

@[simp] theorem State.push16_a (s : State) (v : Word) : (s.push16 v).a = s.a := rfl
@[simp] theorem State.push16_f (s : State) (v : Word) : (s.push16 v).f = s.f := rfl
@[simp] theorem State.push16_b (s : State) (v : Word) : (s.push16 v).b = s.b := rfl
@[simp] theorem State.push16_c (s : State) (v : Word) : (s.push16 v).c = s.c := rfl
@[simp] theorem State.push16_d (s : State) (v : Word) : (s.push16 v).d = s.d := rfl
@[simp] theorem State.push16_e (s : State) (v : Word) : (s.push16 v).e = s.e := rfl
@[simp] theorem State.push16_h (s : State) (v : Word) : (s.push16 v).h = s.h := rfl
@[simp] theorem State.push16_l (s : State) (v : Word) : (s.push16 v).l = s.l := rfl
@[simp] theorem State.push16_aAlt (s : State) (v : Word) : (s.push16 v).aAlt = s.aAlt := rfl
@[simp] theorem State.push16_fAlt (s : State) (v : Word) : (s.push16 v).fAlt = s.fAlt := rfl
@[simp] theorem State.push16_bAlt (s : State) (v : Word) : (s.push16 v).bAlt = s.bAlt := rfl
@[simp] theorem State.push16_cAlt (s : State) (v : Word) : (s.push16 v).cAlt = s.cAlt := rfl
@[simp] theorem State.push16_dAlt (s : State) (v : Word) : (s.push16 v).dAlt = s.dAlt := rfl
@[simp] theorem State.push16_eAlt (s : State) (v : Word) : (s.push16 v).eAlt = s.eAlt := rfl
@[simp] theorem State.push16_hAlt (s : State) (v : Word) : (s.push16 v).hAlt = s.hAlt := rfl
@[simp] theorem State.push16_lAlt (s : State) (v : Word) : (s.push16 v).lAlt = s.lAlt := rfl
@[simp] theorem State.push16_ix (s : State) (v : Word) : (s.push16 v).ix = s.ix := rfl
@[simp] theorem State.push16_iy (s : State) (v : Word) : (s.push16 v).iy = s.iy := rfl
@[simp] theorem State.push16_sp (s : State) (v : Word) : (s.push16 v).sp = s.sp - 2 := rfl
@[simp] theorem State.push16_pc (s : State) (v : Word) : (s.push16 v).pc = s.pc := rfl
@[simp] theorem State.push16_i (s : State) (v : Word) : (s.push16 v).i = s.i := rfl
@[simp] theorem State.push16_r (s : State) (v : Word) : (s.push16 v).r = s.r := rfl
@[simp] theorem State.push16_mem (s : State) (v : Word) : (s.push16 v).mem = (s.mem.write (s.sp - 2 + 1).toNat (hiByte v)).write (s.sp - 2).toNat (loByte v) := rfl
@[simp] theorem State.push16_status (s : State) (v : Word) : (s.push16 v).status = s.status := rfl
@[simp] theorem State.push16_params (s : State) (v : Word) : (s.push16 v).params = s.params := rfl
@[simp] theorem State.push16_ioTrace (s : State) (v : Word) : (s.push16 v).ioTrace = s.ioTrace := rfl
@[simp] theorem State.push16_draws (s : State) (v : Word) : (s.push16 v).draws = s.draws := rfl

/-! ## popSP -/

@[simp] theorem State.popSP_a (s : State) : (s.popSP).a = s.a := rfl
@[simp] theorem State.popSP_f (s : State) : (s.popSP).f = s.f := rfl
@[simp] theorem State.popSP_b (s : State) : (s.popSP).b = s.b := rfl
@[simp] theorem State.popSP_c (s : State) : (s.popSP).c = s.c := rfl
@[simp] theorem State.popSP_d (s : State) : (s.popSP).d = s.d := rfl
@[simp] theorem State.popSP_e (s : State) : (s.popSP).e = s.e := rfl
@[simp] theorem State.popSP_h (s : State) : (s.popSP).h = s.h := rfl
@[simp] theorem State.popSP_l (s : State) : (s.popSP).l = s.l := rfl
@[simp] theorem State.popSP_aAlt (s : State) : (s.popSP).aAlt = s.aAlt := rfl
@[simp] theorem State.popSP_fAlt (s : State) : (s.popSP).fAlt = s.fAlt := rfl
@[simp] theorem State.popSP_bAlt (s : State) : (s.popSP).bAlt = s.bAlt := rfl
@[simp] theorem State.popSP_cAlt (s : State) : (s.popSP).cAlt = s.cAlt := rfl
@[simp] theorem State.popSP_dAlt (s : State) : (s.popSP).dAlt = s.dAlt := rfl
@[simp] theorem State.popSP_eAlt (s : State) : (s.popSP).eAlt = s.eAlt := rfl
@[simp] theorem State.popSP_hAlt (s : State) : (s.popSP).hAlt = s.hAlt := rfl
@[simp] theorem State.popSP_lAlt (s : State) : (s.popSP).lAlt = s.lAlt := rfl
@[simp] theorem State.popSP_ix (s : State) : (s.popSP).ix = s.ix := rfl
@[simp] theorem State.popSP_iy (s : State) : (s.popSP).iy = s.iy := rfl
@[simp] theorem State.popSP_sp (s : State) : (s.popSP).sp = s.sp + 2 := rfl
@[simp] theorem State.popSP_pc (s : State) : (s.popSP).pc = s.pc := rfl
@[simp] theorem State.popSP_i (s : State) : (s.popSP).i = s.i := rfl
@[simp] theorem State.popSP_r (s : State) : (s.popSP).r = s.r := rfl
@[simp] theorem State.popSP_mem (s : State) : (s.popSP).mem = s.mem := rfl
@[simp] theorem State.popSP_status (s : State) : (s.popSP).status = s.status := rfl
@[simp] theorem State.popSP_params (s : State) : (s.popSP).params = s.params := rfl
@[simp] theorem State.popSP_ioTrace (s : State) : (s.popSP).ioTrace = s.ioTrace := rfl
@[simp] theorem State.popSP_draws (s : State) : (s.popSP).draws = s.draws := rfl

/-! ## writeFlags -/

@[simp] theorem State.writeFlags_a (s : State) (extra : Nat) (g : Flags) : (s.writeFlags extra g).a = s.a := rfl
@[simp] theorem State.writeFlags_f (s : State) (extra : Nat) (g : Flags) : (s.writeFlags extra g).f = { g with x5 := s.freshBit 0, x3 := s.freshBit 1 } := rfl
@[simp] theorem State.writeFlags_b (s : State) (extra : Nat) (g : Flags) : (s.writeFlags extra g).b = s.b := rfl
@[simp] theorem State.writeFlags_c (s : State) (extra : Nat) (g : Flags) : (s.writeFlags extra g).c = s.c := rfl
@[simp] theorem State.writeFlags_d (s : State) (extra : Nat) (g : Flags) : (s.writeFlags extra g).d = s.d := rfl
@[simp] theorem State.writeFlags_e (s : State) (extra : Nat) (g : Flags) : (s.writeFlags extra g).e = s.e := rfl
@[simp] theorem State.writeFlags_h (s : State) (extra : Nat) (g : Flags) : (s.writeFlags extra g).h = s.h := rfl
@[simp] theorem State.writeFlags_l (s : State) (extra : Nat) (g : Flags) : (s.writeFlags extra g).l = s.l := rfl
@[simp] theorem State.writeFlags_aAlt (s : State) (extra : Nat) (g : Flags) : (s.writeFlags extra g).aAlt = s.aAlt := rfl
@[simp] theorem State.writeFlags_fAlt (s : State) (extra : Nat) (g : Flags) : (s.writeFlags extra g).fAlt = s.fAlt := rfl
@[simp] theorem State.writeFlags_bAlt (s : State) (extra : Nat) (g : Flags) : (s.writeFlags extra g).bAlt = s.bAlt := rfl
@[simp] theorem State.writeFlags_cAlt (s : State) (extra : Nat) (g : Flags) : (s.writeFlags extra g).cAlt = s.cAlt := rfl
@[simp] theorem State.writeFlags_dAlt (s : State) (extra : Nat) (g : Flags) : (s.writeFlags extra g).dAlt = s.dAlt := rfl
@[simp] theorem State.writeFlags_eAlt (s : State) (extra : Nat) (g : Flags) : (s.writeFlags extra g).eAlt = s.eAlt := rfl
@[simp] theorem State.writeFlags_hAlt (s : State) (extra : Nat) (g : Flags) : (s.writeFlags extra g).hAlt = s.hAlt := rfl
@[simp] theorem State.writeFlags_lAlt (s : State) (extra : Nat) (g : Flags) : (s.writeFlags extra g).lAlt = s.lAlt := rfl
@[simp] theorem State.writeFlags_ix (s : State) (extra : Nat) (g : Flags) : (s.writeFlags extra g).ix = s.ix := rfl
@[simp] theorem State.writeFlags_iy (s : State) (extra : Nat) (g : Flags) : (s.writeFlags extra g).iy = s.iy := rfl
@[simp] theorem State.writeFlags_sp (s : State) (extra : Nat) (g : Flags) : (s.writeFlags extra g).sp = s.sp := rfl
@[simp] theorem State.writeFlags_pc (s : State) (extra : Nat) (g : Flags) : (s.writeFlags extra g).pc = s.pc := rfl
@[simp] theorem State.writeFlags_i (s : State) (extra : Nat) (g : Flags) : (s.writeFlags extra g).i = s.i := rfl
@[simp] theorem State.writeFlags_r (s : State) (extra : Nat) (g : Flags) : (s.writeFlags extra g).r = s.r := rfl
@[simp] theorem State.writeFlags_mem (s : State) (extra : Nat) (g : Flags) : (s.writeFlags extra g).mem = s.mem := rfl
@[simp] theorem State.writeFlags_status (s : State) (extra : Nat) (g : Flags) : (s.writeFlags extra g).status = s.status := rfl
@[simp] theorem State.writeFlags_params (s : State) (extra : Nat) (g : Flags) : (s.writeFlags extra g).params = s.params := rfl
@[simp] theorem State.writeFlags_ioTrace (s : State) (extra : Nat) (g : Flags) : (s.writeFlags extra g).ioTrace = s.ioTrace := rfl
@[simp] theorem State.writeFlags_draws (s : State) (extra : Nat) (g : Flags) : (s.writeFlags extra g).draws = s.draws + (2 + extra) := rfl

/-! ## recordIn -/

@[simp] theorem State.recordIn_a (s : State) (port : Byte) : (s.recordIn port).a = s.a := rfl
@[simp] theorem State.recordIn_f (s : State) (port : Byte) : (s.recordIn port).f = s.f := rfl
@[simp] theorem State.recordIn_b (s : State) (port : Byte) : (s.recordIn port).b = s.b := rfl
@[simp] theorem State.recordIn_c (s : State) (port : Byte) : (s.recordIn port).c = s.c := rfl
@[simp] theorem State.recordIn_d (s : State) (port : Byte) : (s.recordIn port).d = s.d := rfl
@[simp] theorem State.recordIn_e (s : State) (port : Byte) : (s.recordIn port).e = s.e := rfl
@[simp] theorem State.recordIn_h (s : State) (port : Byte) : (s.recordIn port).h = s.h := rfl
@[simp] theorem State.recordIn_l (s : State) (port : Byte) : (s.recordIn port).l = s.l := rfl
@[simp] theorem State.recordIn_aAlt (s : State) (port : Byte) : (s.recordIn port).aAlt = s.aAlt := rfl
@[simp] theorem State.recordIn_fAlt (s : State) (port : Byte) : (s.recordIn port).fAlt = s.fAlt := rfl
@[simp] theorem State.recordIn_bAlt (s : State) (port : Byte) : (s.recordIn port).bAlt = s.bAlt := rfl
@[simp] theorem State.recordIn_cAlt (s : State) (port : Byte) : (s.recordIn port).cAlt = s.cAlt := rfl
@[simp] theorem State.recordIn_dAlt (s : State) (port : Byte) : (s.recordIn port).dAlt = s.dAlt := rfl
@[simp] theorem State.recordIn_eAlt (s : State) (port : Byte) : (s.recordIn port).eAlt = s.eAlt := rfl
@[simp] theorem State.recordIn_hAlt (s : State) (port : Byte) : (s.recordIn port).hAlt = s.hAlt := rfl
@[simp] theorem State.recordIn_lAlt (s : State) (port : Byte) : (s.recordIn port).lAlt = s.lAlt := rfl
@[simp] theorem State.recordIn_ix (s : State) (port : Byte) : (s.recordIn port).ix = s.ix := rfl
@[simp] theorem State.recordIn_iy (s : State) (port : Byte) : (s.recordIn port).iy = s.iy := rfl
@[simp] theorem State.recordIn_sp (s : State) (port : Byte) : (s.recordIn port).sp = s.sp := rfl
@[simp] theorem State.recordIn_pc (s : State) (port : Byte) : (s.recordIn port).pc = s.pc := rfl
@[simp] theorem State.recordIn_i (s : State) (port : Byte) : (s.recordIn port).i = s.i := rfl
@[simp] theorem State.recordIn_r (s : State) (port : Byte) : (s.recordIn port).r = s.r := rfl
@[simp] theorem State.recordIn_mem (s : State) (port : Byte) : (s.recordIn port).mem = s.mem := rfl
@[simp] theorem State.recordIn_status (s : State) (port : Byte) : (s.recordIn port).status = s.status := rfl
@[simp] theorem State.recordIn_params (s : State) (port : Byte) : (s.recordIn port).params = s.params := rfl
@[simp] theorem State.recordIn_ioTrace (s : State) (port : Byte) : (s.recordIn port).ioTrace = s.ioTrace ++ [.input port (s.portValue port)] := rfl
@[simp] theorem State.recordIn_draws (s : State) (port : Byte) : (s.recordIn port).draws = s.draws := rfl

/-! ## recordOut -/

@[simp] theorem State.recordOut_a (s : State) (port v : Byte) : (s.recordOut port v).a = s.a := rfl
@[simp] theorem State.recordOut_f (s : State) (port v : Byte) : (s.recordOut port v).f = s.f := rfl
@[simp] theorem State.recordOut_b (s : State) (port v : Byte) : (s.recordOut port v).b = s.b := rfl
@[simp] theorem State.recordOut_c (s : State) (port v : Byte) : (s.recordOut port v).c = s.c := rfl
@[simp] theorem State.recordOut_d (s : State) (port v : Byte) : (s.recordOut port v).d = s.d := rfl
@[simp] theorem State.recordOut_e (s : State) (port v : Byte) : (s.recordOut port v).e = s.e := rfl
@[simp] theorem State.recordOut_h (s : State) (port v : Byte) : (s.recordOut port v).h = s.h := rfl
@[simp] theorem State.recordOut_l (s : State) (port v : Byte) : (s.recordOut port v).l = s.l := rfl
@[simp] theorem State.recordOut_aAlt (s : State) (port v : Byte) : (s.recordOut port v).aAlt = s.aAlt := rfl
@[simp] theorem State.recordOut_fAlt (s : State) (port v : Byte) : (s.recordOut port v).fAlt = s.fAlt := rfl
@[simp] theorem State.recordOut_bAlt (s : State) (port v : Byte) : (s.recordOut port v).bAlt = s.bAlt := rfl
@[simp] theorem State.recordOut_cAlt (s : State) (port v : Byte) : (s.recordOut port v).cAlt = s.cAlt := rfl
@[simp] theorem State.recordOut_dAlt (s : State) (port v : Byte) : (s.recordOut port v).dAlt = s.dAlt := rfl
@[simp] theorem State.recordOut_eAlt (s : State) (port v : Byte) : (s.recordOut port v).eAlt = s.eAlt := rfl
@[simp] theorem State.recordOut_hAlt (s : State) (port v : Byte) : (s.recordOut port v).hAlt = s.hAlt := rfl
@[simp] theorem State.recordOut_lAlt (s : State) (port v : Byte) : (s.recordOut port v).lAlt = s.lAlt := rfl
@[simp] theorem State.recordOut_ix (s : State) (port v : Byte) : (s.recordOut port v).ix = s.ix := rfl
@[simp] theorem State.recordOut_iy (s : State) (port v : Byte) : (s.recordOut port v).iy = s.iy := rfl
@[simp] theorem State.recordOut_sp (s : State) (port v : Byte) : (s.recordOut port v).sp = s.sp := rfl
@[simp] theorem State.recordOut_pc (s : State) (port v : Byte) : (s.recordOut port v).pc = s.pc := rfl
@[simp] theorem State.recordOut_i (s : State) (port v : Byte) : (s.recordOut port v).i = s.i := rfl
@[simp] theorem State.recordOut_r (s : State) (port v : Byte) : (s.recordOut port v).r = s.r := rfl
@[simp] theorem State.recordOut_mem (s : State) (port v : Byte) : (s.recordOut port v).mem = s.mem := rfl
@[simp] theorem State.recordOut_status (s : State) (port v : Byte) : (s.recordOut port v).status = s.status := rfl
@[simp] theorem State.recordOut_params (s : State) (port v : Byte) : (s.recordOut port v).params = s.params := rfl
@[simp] theorem State.recordOut_ioTrace (s : State) (port v : Byte) : (s.recordOut port v).ioTrace = s.ioTrace ++ [.output port v] := rfl
@[simp] theorem State.recordOut_draws (s : State) (port v : Byte) : (s.recordOut port v).draws = s.draws := rfl

/-! ## setBC -/

@[simp] theorem State.setBC_a (s : State) (v : Word) : (s.setBC v).a = s.a := rfl
@[simp] theorem State.setBC_f (s : State) (v : Word) : (s.setBC v).f = s.f := rfl
@[simp] theorem State.setBC_b (s : State) (v : Word) : (s.setBC v).b = hiByte v := rfl
@[simp] theorem State.setBC_c (s : State) (v : Word) : (s.setBC v).c = loByte v := rfl
@[simp] theorem State.setBC_d (s : State) (v : Word) : (s.setBC v).d = s.d := rfl
@[simp] theorem State.setBC_e (s : State) (v : Word) : (s.setBC v).e = s.e := rfl
@[simp] theorem State.setBC_h (s : State) (v : Word) : (s.setBC v).h = s.h := rfl
@[simp] theorem State.setBC_l (s : State) (v : Word) : (s.setBC v).l = s.l := rfl
@[simp] theorem State.setBC_aAlt (s : State) (v : Word) : (s.setBC v).aAlt = s.aAlt := rfl
@[simp] theorem State.setBC_fAlt (s : State) (v : Word) : (s.setBC v).fAlt = s.fAlt := rfl
@[simp] theorem State.setBC_bAlt (s : State) (v : Word) : (s.setBC v).bAlt = s.bAlt := rfl
@[simp] theorem State.setBC_cAlt (s : State) (v : Word) : (s.setBC v).cAlt = s.cAlt := rfl
@[simp] theorem State.setBC_dAlt (s : State) (v : Word) : (s.setBC v).dAlt = s.dAlt := rfl
@[simp] theorem State.setBC_eAlt (s : State) (v : Word) : (s.setBC v).eAlt = s.eAlt := rfl
@[simp] theorem State.setBC_hAlt (s : State) (v : Word) : (s.setBC v).hAlt = s.hAlt := rfl
@[simp] theorem State.setBC_lAlt (s : State) (v : Word) : (s.setBC v).lAlt = s.lAlt := rfl
@[simp] theorem State.setBC_ix (s : State) (v : Word) : (s.setBC v).ix = s.ix := rfl
@[simp] theorem State.setBC_iy (s : State) (v : Word) : (s.setBC v).iy = s.iy := rfl
@[simp] theorem State.setBC_sp (s : State) (v : Word) : (s.setBC v).sp = s.sp := rfl
@[simp] theorem State.setBC_pc (s : State) (v : Word) : (s.setBC v).pc = s.pc := rfl
@[simp] theorem State.setBC_i (s : State) (v : Word) : (s.setBC v).i = s.i := rfl
@[simp] theorem State.setBC_r (s : State) (v : Word) : (s.setBC v).r = s.r := rfl
@[simp] theorem State.setBC_mem (s : State) (v : Word) : (s.setBC v).mem = s.mem := rfl
@[simp] theorem State.setBC_status (s : State) (v : Word) : (s.setBC v).status = s.status := rfl
@[simp] theorem State.setBC_params (s : State) (v : Word) : (s.setBC v).params = s.params := rfl
@[simp] theorem State.setBC_ioTrace (s : State) (v : Word) : (s.setBC v).ioTrace = s.ioTrace := rfl
@[simp] theorem State.setBC_draws (s : State) (v : Word) : (s.setBC v).draws = s.draws := rfl

/-! ## setDE -/

@[simp] theorem State.setDE_a (s : State) (v : Word) : (s.setDE v).a = s.a := rfl
@[simp] theorem State.setDE_f (s : State) (v : Word) : (s.setDE v).f = s.f := rfl
@[simp] theorem State.setDE_b (s : State) (v : Word) : (s.setDE v).b = s.b := rfl
@[simp] theorem State.setDE_c (s : State) (v : Word) : (s.setDE v).c = s.c := rfl
@[simp] theorem State.setDE_d (s : State) (v : Word) : (s.setDE v).d = hiByte v := rfl
@[simp] theorem State.setDE_e (s : State) (v : Word) : (s.setDE v).e = loByte v := rfl
@[simp] theorem State.setDE_h (s : State) (v : Word) : (s.setDE v).h = s.h := rfl
@[simp] theorem State.setDE_l (s : State) (v : Word) : (s.setDE v).l = s.l := rfl
@[simp] theorem State.setDE_aAlt (s : State) (v : Word) : (s.setDE v).aAlt = s.aAlt := rfl
@[simp] theorem State.setDE_fAlt (s : State) (v : Word) : (s.setDE v).fAlt = s.fAlt := rfl
@[simp] theorem State.setDE_bAlt (s : State) (v : Word) : (s.setDE v).bAlt = s.bAlt := rfl
@[simp] theorem State.setDE_cAlt (s : State) (v : Word) : (s.setDE v).cAlt = s.cAlt := rfl
@[simp] theorem State.setDE_dAlt (s : State) (v : Word) : (s.setDE v).dAlt = s.dAlt := rfl
@[simp] theorem State.setDE_eAlt (s : State) (v : Word) : (s.setDE v).eAlt = s.eAlt := rfl
@[simp] theorem State.setDE_hAlt (s : State) (v : Word) : (s.setDE v).hAlt = s.hAlt := rfl
@[simp] theorem State.setDE_lAlt (s : State) (v : Word) : (s.setDE v).lAlt = s.lAlt := rfl
@[simp] theorem State.setDE_ix (s : State) (v : Word) : (s.setDE v).ix = s.ix := rfl
@[simp] theorem State.setDE_iy (s : State) (v : Word) : (s.setDE v).iy = s.iy := rfl
@[simp] theorem State.setDE_sp (s : State) (v : Word) : (s.setDE v).sp = s.sp := rfl
@[simp] theorem State.setDE_pc (s : State) (v : Word) : (s.setDE v).pc = s.pc := rfl
@[simp] theorem State.setDE_i (s : State) (v : Word) : (s.setDE v).i = s.i := rfl
@[simp] theorem State.setDE_r (s : State) (v : Word) : (s.setDE v).r = s.r := rfl
@[simp] theorem State.setDE_mem (s : State) (v : Word) : (s.setDE v).mem = s.mem := rfl
@[simp] theorem State.setDE_status (s : State) (v : Word) : (s.setDE v).status = s.status := rfl
@[simp] theorem State.setDE_params (s : State) (v : Word) : (s.setDE v).params = s.params := rfl
@[simp] theorem State.setDE_ioTrace (s : State) (v : Word) : (s.setDE v).ioTrace = s.ioTrace := rfl
@[simp] theorem State.setDE_draws (s : State) (v : Word) : (s.setDE v).draws = s.draws := rfl

/-! ## setHL -/

@[simp] theorem State.setHL_a (s : State) (v : Word) : (s.setHL v).a = s.a := rfl
@[simp] theorem State.setHL_f (s : State) (v : Word) : (s.setHL v).f = s.f := rfl
@[simp] theorem State.setHL_b (s : State) (v : Word) : (s.setHL v).b = s.b := rfl
@[simp] theorem State.setHL_c (s : State) (v : Word) : (s.setHL v).c = s.c := rfl
@[simp] theorem State.setHL_d (s : State) (v : Word) : (s.setHL v).d = s.d := rfl
@[simp] theorem State.setHL_e (s : State) (v : Word) : (s.setHL v).e = s.e := rfl
@[simp] theorem State.setHL_h (s : State) (v : Word) : (s.setHL v).h = hiByte v := rfl
@[simp] theorem State.setHL_l (s : State) (v : Word) : (s.setHL v).l = loByte v := rfl
@[simp] theorem State.setHL_aAlt (s : State) (v : Word) : (s.setHL v).aAlt = s.aAlt := rfl
@[simp] theorem State.setHL_fAlt (s : State) (v : Word) : (s.setHL v).fAlt = s.fAlt := rfl
@[simp] theorem State.setHL_bAlt (s : State) (v : Word) : (s.setHL v).bAlt = s.bAlt := rfl
@[simp] theorem State.setHL_cAlt (s : State) (v : Word) : (s.setHL v).cAlt = s.cAlt := rfl
@[simp] theorem State.setHL_dAlt (s : State) (v : Word) : (s.setHL v).dAlt = s.dAlt := rfl
@[simp] theorem State.setHL_eAlt (s : State) (v : Word) : (s.setHL v).eAlt = s.eAlt := rfl
@[simp] theorem State.setHL_hAlt (s : State) (v : Word) : (s.setHL v).hAlt = s.hAlt := rfl
@[simp] theorem State.setHL_lAlt (s : State) (v : Word) : (s.setHL v).lAlt = s.lAlt := rfl
@[simp] theorem State.setHL_ix (s : State) (v : Word) : (s.setHL v).ix = s.ix := rfl
@[simp] theorem State.setHL_iy (s : State) (v : Word) : (s.setHL v).iy = s.iy := rfl
@[simp] theorem State.setHL_sp (s : State) (v : Word) : (s.setHL v).sp = s.sp := rfl
@[simp] theorem State.setHL_pc (s : State) (v : Word) : (s.setHL v).pc = s.pc := rfl
@[simp] theorem State.setHL_i (s : State) (v : Word) : (s.setHL v).i = s.i := rfl
@[simp] theorem State.setHL_r (s : State) (v : Word) : (s.setHL v).r = s.r := rfl
@[simp] theorem State.setHL_mem (s : State) (v : Word) : (s.setHL v).mem = s.mem := rfl
@[simp] theorem State.setHL_status (s : State) (v : Word) : (s.setHL v).status = s.status := rfl
@[simp] theorem State.setHL_params (s : State) (v : Word) : (s.setHL v).params = s.params := rfl
@[simp] theorem State.setHL_ioTrace (s : State) (v : Word) : (s.setHL v).ioTrace = s.ioTrace := rfl
@[simp] theorem State.setHL_draws (s : State) (v : Word) : (s.setHL v).draws = s.draws := rfl

/-! ## setAF -/

@[simp] theorem State.setAF_a (s : State) (v : Word) : (s.setAF v).a = hiByte v := rfl
@[simp] theorem State.setAF_f (s : State) (v : Word) : (s.setAF v).f = Flags.ofByte (loByte v) := rfl
@[simp] theorem State.setAF_b (s : State) (v : Word) : (s.setAF v).b = s.b := rfl
@[simp] theorem State.setAF_c (s : State) (v : Word) : (s.setAF v).c = s.c := rfl
@[simp] theorem State.setAF_d (s : State) (v : Word) : (s.setAF v).d = s.d := rfl
@[simp] theorem State.setAF_e (s : State) (v : Word) : (s.setAF v).e = s.e := rfl
@[simp] theorem State.setAF_h (s : State) (v : Word) : (s.setAF v).h = s.h := rfl
@[simp] theorem State.setAF_l (s : State) (v : Word) : (s.setAF v).l = s.l := rfl
@[simp] theorem State.setAF_aAlt (s : State) (v : Word) : (s.setAF v).aAlt = s.aAlt := rfl
@[simp] theorem State.setAF_fAlt (s : State) (v : Word) : (s.setAF v).fAlt = s.fAlt := rfl
@[simp] theorem State.setAF_bAlt (s : State) (v : Word) : (s.setAF v).bAlt = s.bAlt := rfl
@[simp] theorem State.setAF_cAlt (s : State) (v : Word) : (s.setAF v).cAlt = s.cAlt := rfl
@[simp] theorem State.setAF_dAlt (s : State) (v : Word) : (s.setAF v).dAlt = s.dAlt := rfl
@[simp] theorem State.setAF_eAlt (s : State) (v : Word) : (s.setAF v).eAlt = s.eAlt := rfl
@[simp] theorem State.setAF_hAlt (s : State) (v : Word) : (s.setAF v).hAlt = s.hAlt := rfl
@[simp] theorem State.setAF_lAlt (s : State) (v : Word) : (s.setAF v).lAlt = s.lAlt := rfl
@[simp] theorem State.setAF_ix (s : State) (v : Word) : (s.setAF v).ix = s.ix := rfl
@[simp] theorem State.setAF_iy (s : State) (v : Word) : (s.setAF v).iy = s.iy := rfl
@[simp] theorem State.setAF_sp (s : State) (v : Word) : (s.setAF v).sp = s.sp := rfl
@[simp] theorem State.setAF_pc (s : State) (v : Word) : (s.setAF v).pc = s.pc := rfl
@[simp] theorem State.setAF_i (s : State) (v : Word) : (s.setAF v).i = s.i := rfl
@[simp] theorem State.setAF_r (s : State) (v : Word) : (s.setAF v).r = s.r := rfl
@[simp] theorem State.setAF_mem (s : State) (v : Word) : (s.setAF v).mem = s.mem := rfl
@[simp] theorem State.setAF_status (s : State) (v : Word) : (s.setAF v).status = s.status := rfl
@[simp] theorem State.setAF_params (s : State) (v : Word) : (s.setAF v).params = s.params := rfl
@[simp] theorem State.setAF_ioTrace (s : State) (v : Word) : (s.setAF v).ioTrace = s.ioTrace := rfl
@[simp] theorem State.setAF_draws (s : State) (v : Word) : (s.setAF v).draws = s.draws := rfl

/-! ## setR -/

@[simp] theorem State.setR_f (s : State) (k : Reg) (v : Byte) : (s.setR k v).f = s.f := by cases k <;> rfl
@[simp] theorem State.setR_aAlt (s : State) (k : Reg) (v : Byte) : (s.setR k v).aAlt = s.aAlt := by cases k <;> rfl
@[simp] theorem State.setR_fAlt (s : State) (k : Reg) (v : Byte) : (s.setR k v).fAlt = s.fAlt := by cases k <;> rfl
@[simp] theorem State.setR_bAlt (s : State) (k : Reg) (v : Byte) : (s.setR k v).bAlt = s.bAlt := by cases k <;> rfl
@[simp] theorem State.setR_cAlt (s : State) (k : Reg) (v : Byte) : (s.setR k v).cAlt = s.cAlt := by cases k <;> rfl
@[simp] theorem State.setR_dAlt (s : State) (k : Reg) (v : Byte) : (s.setR k v).dAlt = s.dAlt := by cases k <;> rfl
@[simp] theorem State.setR_eAlt (s : State) (k : Reg) (v : Byte) : (s.setR k v).eAlt = s.eAlt := by cases k <;> rfl
@[simp] theorem State.setR_hAlt (s : State) (k : Reg) (v : Byte) : (s.setR k v).hAlt = s.hAlt := by cases k <;> rfl
@[simp] theorem State.setR_lAlt (s : State) (k : Reg) (v : Byte) : (s.setR k v).lAlt = s.lAlt := by cases k <;> rfl
@[simp] theorem State.setR_ix (s : State) (k : Reg) (v : Byte) : (s.setR k v).ix = s.ix := by cases k <;> rfl
@[simp] theorem State.setR_iy (s : State) (k : Reg) (v : Byte) : (s.setR k v).iy = s.iy := by cases k <;> rfl
@[simp] theorem State.setR_sp (s : State) (k : Reg) (v : Byte) : (s.setR k v).sp = s.sp := by cases k <;> rfl
@[simp] theorem State.setR_pc (s : State) (k : Reg) (v : Byte) : (s.setR k v).pc = s.pc := by cases k <;> rfl
@[simp] theorem State.setR_i (s : State) (k : Reg) (v : Byte) : (s.setR k v).i = s.i := by cases k <;> rfl
@[simp] theorem State.setR_r (s : State) (k : Reg) (v : Byte) : (s.setR k v).r = s.r := by cases k <;> rfl
@[simp] theorem State.setR_mem (s : State) (k : Reg) (v : Byte) : (s.setR k v).mem = s.mem := by cases k <;> rfl
@[simp] theorem State.setR_status (s : State) (k : Reg) (v : Byte) : (s.setR k v).status = s.status := by cases k <;> rfl
@[simp] theorem State.setR_params (s : State) (k : Reg) (v : Byte) : (s.setR k v).params = s.params := by cases k <;> rfl
@[simp] theorem State.setR_ioTrace (s : State) (k : Reg) (v : Byte) : (s.setR k v).ioTrace = s.ioTrace := by cases k <;> rfl
@[simp] theorem State.setR_draws (s : State) (k : Reg) (v : Byte) : (s.setR k v).draws = s.draws := by cases k <;> rfl

/-! ## setSS -/

@[simp] theorem State.setSS_a (s : State) (k : RegSS) (v : Word) : (s.setSS k v).a = s.a := by cases k <;> rfl
@[simp] theorem State.setSS_f (s : State) (k : RegSS) (v : Word) : (s.setSS k v).f = s.f := by cases k <;> rfl
@[simp] theorem State.setSS_aAlt (s : State) (k : RegSS) (v : Word) : (s.setSS k v).aAlt = s.aAlt := by cases k <;> rfl
@[simp] theorem State.setSS_fAlt (s : State) (k : RegSS) (v : Word) : (s.setSS k v).fAlt = s.fAlt := by cases k <;> rfl
@[simp] theorem State.setSS_bAlt (s : State) (k : RegSS) (v : Word) : (s.setSS k v).bAlt = s.bAlt := by cases k <;> rfl
@[simp] theorem State.setSS_cAlt (s : State) (k : RegSS) (v : Word) : (s.setSS k v).cAlt = s.cAlt := by cases k <;> rfl
@[simp] theorem State.setSS_dAlt (s : State) (k : RegSS) (v : Word) : (s.setSS k v).dAlt = s.dAlt := by cases k <;> rfl
@[simp] theorem State.setSS_eAlt (s : State) (k : RegSS) (v : Word) : (s.setSS k v).eAlt = s.eAlt := by cases k <;> rfl
@[simp] theorem State.setSS_hAlt (s : State) (k : RegSS) (v : Word) : (s.setSS k v).hAlt = s.hAlt := by cases k <;> rfl
@[simp] theorem State.setSS_lAlt (s : State) (k : RegSS) (v : Word) : (s.setSS k v).lAlt = s.lAlt := by cases k <;> rfl
@[simp] theorem State.setSS_ix (s : State) (k : RegSS) (v : Word) : (s.setSS k v).ix = s.ix := by cases k <;> rfl
@[simp] theorem State.setSS_iy (s : State) (k : RegSS) (v : Word) : (s.setSS k v).iy = s.iy := by cases k <;> rfl
@[simp] theorem State.setSS_pc (s : State) (k : RegSS) (v : Word) : (s.setSS k v).pc = s.pc := by cases k <;> rfl
@[simp] theorem State.setSS_i (s : State) (k : RegSS) (v : Word) : (s.setSS k v).i = s.i := by cases k <;> rfl
@[simp] theorem State.setSS_r (s : State) (k : RegSS) (v : Word) : (s.setSS k v).r = s.r := by cases k <;> rfl
@[simp] theorem State.setSS_mem (s : State) (k : RegSS) (v : Word) : (s.setSS k v).mem = s.mem := by cases k <;> rfl
@[simp] theorem State.setSS_status (s : State) (k : RegSS) (v : Word) : (s.setSS k v).status = s.status := by cases k <;> rfl
@[simp] theorem State.setSS_params (s : State) (k : RegSS) (v : Word) : (s.setSS k v).params = s.params := by cases k <;> rfl
@[simp] theorem State.setSS_ioTrace (s : State) (k : RegSS) (v : Word) : (s.setSS k v).ioTrace = s.ioTrace := by cases k <;> rfl
@[simp] theorem State.setSS_draws (s : State) (k : RegSS) (v : Word) : (s.setSS k v).draws = s.draws := by cases k <;> rfl

/-! ## setQQ -/

@[simp] theorem State.setQQ_aAlt (s : State) (k : RegQQ) (v : Word) : (s.setQQ k v).aAlt = s.aAlt := by cases k <;> rfl
@[simp] theorem State.setQQ_fAlt (s : State) (k : RegQQ) (v : Word) : (s.setQQ k v).fAlt = s.fAlt := by cases k <;> rfl
@[simp] theorem State.setQQ_bAlt (s : State) (k : RegQQ) (v : Word) : (s.setQQ k v).bAlt = s.bAlt := by cases k <;> rfl
@[simp] theorem State.setQQ_cAlt (s : State) (k : RegQQ) (v : Word) : (s.setQQ k v).cAlt = s.cAlt := by cases k <;> rfl
@[simp] theorem State.setQQ_dAlt (s : State) (k : RegQQ) (v : Word) : (s.setQQ k v).dAlt = s.dAlt := by cases k <;> rfl
@[simp] theorem State.setQQ_eAlt (s : State) (k : RegQQ) (v : Word) : (s.setQQ k v).eAlt = s.eAlt := by cases k <;> rfl
@[simp] theorem State.setQQ_hAlt (s : State) (k : RegQQ) (v : Word) : (s.setQQ k v).hAlt = s.hAlt := by cases k <;> rfl
@[simp] theorem State.setQQ_lAlt (s : State) (k : RegQQ) (v : Word) : (s.setQQ k v).lAlt = s.lAlt := by cases k <;> rfl
@[simp] theorem State.setQQ_ix (s : State) (k : RegQQ) (v : Word) : (s.setQQ k v).ix = s.ix := by cases k <;> rfl
@[simp] theorem State.setQQ_iy (s : State) (k : RegQQ) (v : Word) : (s.setQQ k v).iy = s.iy := by cases k <;> rfl
@[simp] theorem State.setQQ_sp (s : State) (k : RegQQ) (v : Word) : (s.setQQ k v).sp = s.sp := by cases k <;> rfl
@[simp] theorem State.setQQ_pc (s : State) (k : RegQQ) (v : Word) : (s.setQQ k v).pc = s.pc := by cases k <;> rfl
@[simp] theorem State.setQQ_i (s : State) (k : RegQQ) (v : Word) : (s.setQQ k v).i = s.i := by cases k <;> rfl
@[simp] theorem State.setQQ_r (s : State) (k : RegQQ) (v : Word) : (s.setQQ k v).r = s.r := by cases k <;> rfl
@[simp] theorem State.setQQ_mem (s : State) (k : RegQQ) (v : Word) : (s.setQQ k v).mem = s.mem := by cases k <;> rfl
@[simp] theorem State.setQQ_status (s : State) (k : RegQQ) (v : Word) : (s.setQQ k v).status = s.status := by cases k <;> rfl
@[simp] theorem State.setQQ_params (s : State) (k : RegQQ) (v : Word) : (s.setQQ k v).params = s.params := by cases k <;> rfl
@[simp] theorem State.setQQ_ioTrace (s : State) (k : RegQQ) (v : Word) : (s.setQQ k v).ioTrace = s.ioTrace := by cases k <;> rfl
@[simp] theorem State.setQQ_draws (s : State) (k : RegQQ) (v : Word) : (s.setQQ k v).draws = s.draws := by cases k <;> rfl

/-! ## takeDecodeError -/

@[simp] theorem State.takeDecodeError_a (s : State) (bytes : List Byte) : (s.takeDecodeError bytes).a = s.a := rfl
@[simp] theorem State.takeDecodeError_f (s : State) (bytes : List Byte) : (s.takeDecodeError bytes).f = s.f := rfl
@[simp] theorem State.takeDecodeError_b (s : State) (bytes : List Byte) : (s.takeDecodeError bytes).b = s.b := rfl
@[simp] theorem State.takeDecodeError_c (s : State) (bytes : List Byte) : (s.takeDecodeError bytes).c = s.c := rfl
@[simp] theorem State.takeDecodeError_d (s : State) (bytes : List Byte) : (s.takeDecodeError bytes).d = s.d := rfl
@[simp] theorem State.takeDecodeError_e (s : State) (bytes : List Byte) : (s.takeDecodeError bytes).e = s.e := rfl
@[simp] theorem State.takeDecodeError_h (s : State) (bytes : List Byte) : (s.takeDecodeError bytes).h = s.h := rfl
@[simp] theorem State.takeDecodeError_l (s : State) (bytes : List Byte) : (s.takeDecodeError bytes).l = s.l := rfl
@[simp] theorem State.takeDecodeError_aAlt (s : State) (bytes : List Byte) : (s.takeDecodeError bytes).aAlt = s.aAlt := rfl
@[simp] theorem State.takeDecodeError_fAlt (s : State) (bytes : List Byte) : (s.takeDecodeError bytes).fAlt = s.fAlt := rfl
@[simp] theorem State.takeDecodeError_bAlt (s : State) (bytes : List Byte) : (s.takeDecodeError bytes).bAlt = s.bAlt := rfl
@[simp] theorem State.takeDecodeError_cAlt (s : State) (bytes : List Byte) : (s.takeDecodeError bytes).cAlt = s.cAlt := rfl
@[simp] theorem State.takeDecodeError_dAlt (s : State) (bytes : List Byte) : (s.takeDecodeError bytes).dAlt = s.dAlt := rfl
@[simp] theorem State.takeDecodeError_eAlt (s : State) (bytes : List Byte) : (s.takeDecodeError bytes).eAlt = s.eAlt := rfl
@[simp] theorem State.takeDecodeError_hAlt (s : State) (bytes : List Byte) : (s.takeDecodeError bytes).hAlt = s.hAlt := rfl
@[simp] theorem State.takeDecodeError_lAlt (s : State) (bytes : List Byte) : (s.takeDecodeError bytes).lAlt = s.lAlt := rfl
@[simp] theorem State.takeDecodeError_ix (s : State) (bytes : List Byte) : (s.takeDecodeError bytes).ix = s.ix := rfl
@[simp] theorem State.takeDecodeError_iy (s : State) (bytes : List Byte) : (s.takeDecodeError bytes).iy = s.iy := rfl
@[simp] theorem State.takeDecodeError_sp (s : State) (bytes : List Byte) : (s.takeDecodeError bytes).sp = s.sp := rfl
@[simp] theorem State.takeDecodeError_pc (s : State) (bytes : List Byte) : (s.takeDecodeError bytes).pc = Config.unspecWord s.draws := rfl
@[simp] theorem State.takeDecodeError_i (s : State) (bytes : List Byte) : (s.takeDecodeError bytes).i = s.i := rfl
@[simp] theorem State.takeDecodeError_r (s : State) (bytes : List Byte) : (s.takeDecodeError bytes).r = Config.unspecByte (s.draws + 1) := rfl
@[simp] theorem State.takeDecodeError_mem (s : State) (bytes : List Byte) : (s.takeDecodeError bytes).mem = s.mem := rfl
@[simp] theorem State.takeDecodeError_status (s : State) (bytes : List Byte) : (s.takeDecodeError bytes).status = .faulted s.pc bytes false := rfl
@[simp] theorem State.takeDecodeError_params (s : State) (bytes : List Byte) : (s.takeDecodeError bytes).params = s.params := rfl
@[simp] theorem State.takeDecodeError_ioTrace (s : State) (bytes : List Byte) : (s.takeDecodeError bytes).ioTrace = s.ioTrace := rfl
@[simp] theorem State.takeDecodeError_draws (s : State) (bytes : List Byte) : (s.takeDecodeError bytes).draws = s.draws + 2 := rfl

/-! ## The shared flag effects write only F and the draw counter -/

@[simp] theorem State.aluFlags_a (s : State) (o : Alu8) : (s.aluFlags o).a = s.a := rfl
@[simp] theorem State.aluFlags_b (s : State) (o : Alu8) : (s.aluFlags o).b = s.b := rfl
@[simp] theorem State.aluFlags_c (s : State) (o : Alu8) : (s.aluFlags o).c = s.c := rfl
@[simp] theorem State.aluFlags_d (s : State) (o : Alu8) : (s.aluFlags o).d = s.d := rfl
@[simp] theorem State.aluFlags_e (s : State) (o : Alu8) : (s.aluFlags o).e = s.e := rfl
@[simp] theorem State.aluFlags_h (s : State) (o : Alu8) : (s.aluFlags o).h = s.h := rfl
@[simp] theorem State.aluFlags_l (s : State) (o : Alu8) : (s.aluFlags o).l = s.l := rfl
@[simp] theorem State.aluFlags_aAlt (s : State) (o : Alu8) : (s.aluFlags o).aAlt = s.aAlt := rfl
@[simp] theorem State.aluFlags_fAlt (s : State) (o : Alu8) : (s.aluFlags o).fAlt = s.fAlt := rfl
@[simp] theorem State.aluFlags_bAlt (s : State) (o : Alu8) : (s.aluFlags o).bAlt = s.bAlt := rfl
@[simp] theorem State.aluFlags_cAlt (s : State) (o : Alu8) : (s.aluFlags o).cAlt = s.cAlt := rfl
@[simp] theorem State.aluFlags_dAlt (s : State) (o : Alu8) : (s.aluFlags o).dAlt = s.dAlt := rfl
@[simp] theorem State.aluFlags_eAlt (s : State) (o : Alu8) : (s.aluFlags o).eAlt = s.eAlt := rfl
@[simp] theorem State.aluFlags_hAlt (s : State) (o : Alu8) : (s.aluFlags o).hAlt = s.hAlt := rfl
@[simp] theorem State.aluFlags_lAlt (s : State) (o : Alu8) : (s.aluFlags o).lAlt = s.lAlt := rfl
@[simp] theorem State.aluFlags_ix (s : State) (o : Alu8) : (s.aluFlags o).ix = s.ix := rfl
@[simp] theorem State.aluFlags_iy (s : State) (o : Alu8) : (s.aluFlags o).iy = s.iy := rfl
@[simp] theorem State.aluFlags_sp (s : State) (o : Alu8) : (s.aluFlags o).sp = s.sp := rfl
@[simp] theorem State.aluFlags_pc (s : State) (o : Alu8) : (s.aluFlags o).pc = s.pc := rfl
@[simp] theorem State.aluFlags_i (s : State) (o : Alu8) : (s.aluFlags o).i = s.i := rfl
@[simp] theorem State.aluFlags_r (s : State) (o : Alu8) : (s.aluFlags o).r = s.r := rfl
@[simp] theorem State.aluFlags_mem (s : State) (o : Alu8) : (s.aluFlags o).mem = s.mem := rfl
@[simp] theorem State.aluFlags_status (s : State) (o : Alu8) : (s.aluFlags o).status = s.status := rfl
@[simp] theorem State.aluFlags_params (s : State) (o : Alu8) : (s.aluFlags o).params = s.params := rfl
@[simp] theorem State.aluFlags_ioTrace (s : State) (o : Alu8) : (s.aluFlags o).ioTrace = s.ioTrace := rfl
@[simp] theorem State.aluFlags_draws (s : State) (o : Alu8) : (s.aluFlags o).draws = s.draws + 2 := rfl

@[simp] theorem State.incFlags_a (s : State) (o : Inc8) : (s.incFlags o).a = s.a := rfl
@[simp] theorem State.incFlags_b (s : State) (o : Inc8) : (s.incFlags o).b = s.b := rfl
@[simp] theorem State.incFlags_c (s : State) (o : Inc8) : (s.incFlags o).c = s.c := rfl
@[simp] theorem State.incFlags_d (s : State) (o : Inc8) : (s.incFlags o).d = s.d := rfl
@[simp] theorem State.incFlags_e (s : State) (o : Inc8) : (s.incFlags o).e = s.e := rfl
@[simp] theorem State.incFlags_h (s : State) (o : Inc8) : (s.incFlags o).h = s.h := rfl
@[simp] theorem State.incFlags_l (s : State) (o : Inc8) : (s.incFlags o).l = s.l := rfl
@[simp] theorem State.incFlags_aAlt (s : State) (o : Inc8) : (s.incFlags o).aAlt = s.aAlt := rfl
@[simp] theorem State.incFlags_fAlt (s : State) (o : Inc8) : (s.incFlags o).fAlt = s.fAlt := rfl
@[simp] theorem State.incFlags_bAlt (s : State) (o : Inc8) : (s.incFlags o).bAlt = s.bAlt := rfl
@[simp] theorem State.incFlags_cAlt (s : State) (o : Inc8) : (s.incFlags o).cAlt = s.cAlt := rfl
@[simp] theorem State.incFlags_dAlt (s : State) (o : Inc8) : (s.incFlags o).dAlt = s.dAlt := rfl
@[simp] theorem State.incFlags_eAlt (s : State) (o : Inc8) : (s.incFlags o).eAlt = s.eAlt := rfl
@[simp] theorem State.incFlags_hAlt (s : State) (o : Inc8) : (s.incFlags o).hAlt = s.hAlt := rfl
@[simp] theorem State.incFlags_lAlt (s : State) (o : Inc8) : (s.incFlags o).lAlt = s.lAlt := rfl
@[simp] theorem State.incFlags_ix (s : State) (o : Inc8) : (s.incFlags o).ix = s.ix := rfl
@[simp] theorem State.incFlags_iy (s : State) (o : Inc8) : (s.incFlags o).iy = s.iy := rfl
@[simp] theorem State.incFlags_sp (s : State) (o : Inc8) : (s.incFlags o).sp = s.sp := rfl
@[simp] theorem State.incFlags_pc (s : State) (o : Inc8) : (s.incFlags o).pc = s.pc := rfl
@[simp] theorem State.incFlags_i (s : State) (o : Inc8) : (s.incFlags o).i = s.i := rfl
@[simp] theorem State.incFlags_r (s : State) (o : Inc8) : (s.incFlags o).r = s.r := rfl
@[simp] theorem State.incFlags_mem (s : State) (o : Inc8) : (s.incFlags o).mem = s.mem := rfl
@[simp] theorem State.incFlags_status (s : State) (o : Inc8) : (s.incFlags o).status = s.status := rfl
@[simp] theorem State.incFlags_params (s : State) (o : Inc8) : (s.incFlags o).params = s.params := rfl
@[simp] theorem State.incFlags_ioTrace (s : State) (o : Inc8) : (s.incFlags o).ioTrace = s.ioTrace := rfl
@[simp] theorem State.incFlags_draws (s : State) (o : Inc8) : (s.incFlags o).draws = s.draws + 2 := rfl

@[simp] theorem State.add16Flags_a (s : State) (o : Add16) : (s.add16Flags o).a = s.a := rfl
@[simp] theorem State.add16Flags_b (s : State) (o : Add16) : (s.add16Flags o).b = s.b := rfl
@[simp] theorem State.add16Flags_c (s : State) (o : Add16) : (s.add16Flags o).c = s.c := rfl
@[simp] theorem State.add16Flags_d (s : State) (o : Add16) : (s.add16Flags o).d = s.d := rfl
@[simp] theorem State.add16Flags_e (s : State) (o : Add16) : (s.add16Flags o).e = s.e := rfl
@[simp] theorem State.add16Flags_h (s : State) (o : Add16) : (s.add16Flags o).h = s.h := rfl
@[simp] theorem State.add16Flags_l (s : State) (o : Add16) : (s.add16Flags o).l = s.l := rfl
@[simp] theorem State.add16Flags_aAlt (s : State) (o : Add16) : (s.add16Flags o).aAlt = s.aAlt := rfl
@[simp] theorem State.add16Flags_fAlt (s : State) (o : Add16) : (s.add16Flags o).fAlt = s.fAlt := rfl
@[simp] theorem State.add16Flags_bAlt (s : State) (o : Add16) : (s.add16Flags o).bAlt = s.bAlt := rfl
@[simp] theorem State.add16Flags_cAlt (s : State) (o : Add16) : (s.add16Flags o).cAlt = s.cAlt := rfl
@[simp] theorem State.add16Flags_dAlt (s : State) (o : Add16) : (s.add16Flags o).dAlt = s.dAlt := rfl
@[simp] theorem State.add16Flags_eAlt (s : State) (o : Add16) : (s.add16Flags o).eAlt = s.eAlt := rfl
@[simp] theorem State.add16Flags_hAlt (s : State) (o : Add16) : (s.add16Flags o).hAlt = s.hAlt := rfl
@[simp] theorem State.add16Flags_lAlt (s : State) (o : Add16) : (s.add16Flags o).lAlt = s.lAlt := rfl
@[simp] theorem State.add16Flags_ix (s : State) (o : Add16) : (s.add16Flags o).ix = s.ix := rfl
@[simp] theorem State.add16Flags_iy (s : State) (o : Add16) : (s.add16Flags o).iy = s.iy := rfl
@[simp] theorem State.add16Flags_sp (s : State) (o : Add16) : (s.add16Flags o).sp = s.sp := rfl
@[simp] theorem State.add16Flags_pc (s : State) (o : Add16) : (s.add16Flags o).pc = s.pc := rfl
@[simp] theorem State.add16Flags_i (s : State) (o : Add16) : (s.add16Flags o).i = s.i := rfl
@[simp] theorem State.add16Flags_r (s : State) (o : Add16) : (s.add16Flags o).r = s.r := rfl
@[simp] theorem State.add16Flags_mem (s : State) (o : Add16) : (s.add16Flags o).mem = s.mem := rfl
@[simp] theorem State.add16Flags_status (s : State) (o : Add16) : (s.add16Flags o).status = s.status := rfl
@[simp] theorem State.add16Flags_params (s : State) (o : Add16) : (s.add16Flags o).params = s.params := rfl
@[simp] theorem State.add16Flags_ioTrace (s : State) (o : Add16) : (s.add16Flags o).ioTrace = s.ioTrace := rfl
@[simp] theorem State.add16Flags_draws (s : State) (o : Add16) : (s.add16Flags o).draws = s.draws + 2 := rfl

@[simp] theorem State.alu16Flags_a (s : State) (o : Alu16) : (s.alu16Flags o).a = s.a := rfl
@[simp] theorem State.alu16Flags_b (s : State) (o : Alu16) : (s.alu16Flags o).b = s.b := rfl
@[simp] theorem State.alu16Flags_c (s : State) (o : Alu16) : (s.alu16Flags o).c = s.c := rfl
@[simp] theorem State.alu16Flags_d (s : State) (o : Alu16) : (s.alu16Flags o).d = s.d := rfl
@[simp] theorem State.alu16Flags_e (s : State) (o : Alu16) : (s.alu16Flags o).e = s.e := rfl
@[simp] theorem State.alu16Flags_h (s : State) (o : Alu16) : (s.alu16Flags o).h = s.h := rfl
@[simp] theorem State.alu16Flags_l (s : State) (o : Alu16) : (s.alu16Flags o).l = s.l := rfl
@[simp] theorem State.alu16Flags_aAlt (s : State) (o : Alu16) : (s.alu16Flags o).aAlt = s.aAlt := rfl
@[simp] theorem State.alu16Flags_fAlt (s : State) (o : Alu16) : (s.alu16Flags o).fAlt = s.fAlt := rfl
@[simp] theorem State.alu16Flags_bAlt (s : State) (o : Alu16) : (s.alu16Flags o).bAlt = s.bAlt := rfl
@[simp] theorem State.alu16Flags_cAlt (s : State) (o : Alu16) : (s.alu16Flags o).cAlt = s.cAlt := rfl
@[simp] theorem State.alu16Flags_dAlt (s : State) (o : Alu16) : (s.alu16Flags o).dAlt = s.dAlt := rfl
@[simp] theorem State.alu16Flags_eAlt (s : State) (o : Alu16) : (s.alu16Flags o).eAlt = s.eAlt := rfl
@[simp] theorem State.alu16Flags_hAlt (s : State) (o : Alu16) : (s.alu16Flags o).hAlt = s.hAlt := rfl
@[simp] theorem State.alu16Flags_lAlt (s : State) (o : Alu16) : (s.alu16Flags o).lAlt = s.lAlt := rfl
@[simp] theorem State.alu16Flags_ix (s : State) (o : Alu16) : (s.alu16Flags o).ix = s.ix := rfl
@[simp] theorem State.alu16Flags_iy (s : State) (o : Alu16) : (s.alu16Flags o).iy = s.iy := rfl
@[simp] theorem State.alu16Flags_sp (s : State) (o : Alu16) : (s.alu16Flags o).sp = s.sp := rfl
@[simp] theorem State.alu16Flags_pc (s : State) (o : Alu16) : (s.alu16Flags o).pc = s.pc := rfl
@[simp] theorem State.alu16Flags_i (s : State) (o : Alu16) : (s.alu16Flags o).i = s.i := rfl
@[simp] theorem State.alu16Flags_r (s : State) (o : Alu16) : (s.alu16Flags o).r = s.r := rfl
@[simp] theorem State.alu16Flags_mem (s : State) (o : Alu16) : (s.alu16Flags o).mem = s.mem := rfl
@[simp] theorem State.alu16Flags_status (s : State) (o : Alu16) : (s.alu16Flags o).status = s.status := rfl
@[simp] theorem State.alu16Flags_params (s : State) (o : Alu16) : (s.alu16Flags o).params = s.params := rfl
@[simp] theorem State.alu16Flags_ioTrace (s : State) (o : Alu16) : (s.alu16Flags o).ioTrace = s.ioTrace := rfl
@[simp] theorem State.alu16Flags_draws (s : State) (o : Alu16) : (s.alu16Flags o).draws = s.draws + 2 := rfl

@[simp] theorem State.rotFlags_a (s : State) (o : Rot8) : (s.rotFlags o).a = s.a := rfl
@[simp] theorem State.rotFlags_b (s : State) (o : Rot8) : (s.rotFlags o).b = s.b := rfl
@[simp] theorem State.rotFlags_c (s : State) (o : Rot8) : (s.rotFlags o).c = s.c := rfl
@[simp] theorem State.rotFlags_d (s : State) (o : Rot8) : (s.rotFlags o).d = s.d := rfl
@[simp] theorem State.rotFlags_e (s : State) (o : Rot8) : (s.rotFlags o).e = s.e := rfl
@[simp] theorem State.rotFlags_h (s : State) (o : Rot8) : (s.rotFlags o).h = s.h := rfl
@[simp] theorem State.rotFlags_l (s : State) (o : Rot8) : (s.rotFlags o).l = s.l := rfl
@[simp] theorem State.rotFlags_aAlt (s : State) (o : Rot8) : (s.rotFlags o).aAlt = s.aAlt := rfl
@[simp] theorem State.rotFlags_fAlt (s : State) (o : Rot8) : (s.rotFlags o).fAlt = s.fAlt := rfl
@[simp] theorem State.rotFlags_bAlt (s : State) (o : Rot8) : (s.rotFlags o).bAlt = s.bAlt := rfl
@[simp] theorem State.rotFlags_cAlt (s : State) (o : Rot8) : (s.rotFlags o).cAlt = s.cAlt := rfl
@[simp] theorem State.rotFlags_dAlt (s : State) (o : Rot8) : (s.rotFlags o).dAlt = s.dAlt := rfl
@[simp] theorem State.rotFlags_eAlt (s : State) (o : Rot8) : (s.rotFlags o).eAlt = s.eAlt := rfl
@[simp] theorem State.rotFlags_hAlt (s : State) (o : Rot8) : (s.rotFlags o).hAlt = s.hAlt := rfl
@[simp] theorem State.rotFlags_lAlt (s : State) (o : Rot8) : (s.rotFlags o).lAlt = s.lAlt := rfl
@[simp] theorem State.rotFlags_ix (s : State) (o : Rot8) : (s.rotFlags o).ix = s.ix := rfl
@[simp] theorem State.rotFlags_iy (s : State) (o : Rot8) : (s.rotFlags o).iy = s.iy := rfl
@[simp] theorem State.rotFlags_sp (s : State) (o : Rot8) : (s.rotFlags o).sp = s.sp := rfl
@[simp] theorem State.rotFlags_pc (s : State) (o : Rot8) : (s.rotFlags o).pc = s.pc := rfl
@[simp] theorem State.rotFlags_i (s : State) (o : Rot8) : (s.rotFlags o).i = s.i := rfl
@[simp] theorem State.rotFlags_r (s : State) (o : Rot8) : (s.rotFlags o).r = s.r := rfl
@[simp] theorem State.rotFlags_mem (s : State) (o : Rot8) : (s.rotFlags o).mem = s.mem := rfl
@[simp] theorem State.rotFlags_status (s : State) (o : Rot8) : (s.rotFlags o).status = s.status := rfl
@[simp] theorem State.rotFlags_params (s : State) (o : Rot8) : (s.rotFlags o).params = s.params := rfl
@[simp] theorem State.rotFlags_ioTrace (s : State) (o : Rot8) : (s.rotFlags o).ioTrace = s.ioTrace := rfl
@[simp] theorem State.rotFlags_draws (s : State) (o : Rot8) : (s.rotFlags o).draws = s.draws + 2 := rfl

@[simp] theorem State.bitFlags_a (s : State) (v : Bool) : (s.bitFlags v).a = s.a := rfl
@[simp] theorem State.bitFlags_b (s : State) (v : Bool) : (s.bitFlags v).b = s.b := rfl
@[simp] theorem State.bitFlags_c (s : State) (v : Bool) : (s.bitFlags v).c = s.c := rfl
@[simp] theorem State.bitFlags_d (s : State) (v : Bool) : (s.bitFlags v).d = s.d := rfl
@[simp] theorem State.bitFlags_e (s : State) (v : Bool) : (s.bitFlags v).e = s.e := rfl
@[simp] theorem State.bitFlags_h (s : State) (v : Bool) : (s.bitFlags v).h = s.h := rfl
@[simp] theorem State.bitFlags_l (s : State) (v : Bool) : (s.bitFlags v).l = s.l := rfl
@[simp] theorem State.bitFlags_aAlt (s : State) (v : Bool) : (s.bitFlags v).aAlt = s.aAlt := rfl
@[simp] theorem State.bitFlags_fAlt (s : State) (v : Bool) : (s.bitFlags v).fAlt = s.fAlt := rfl
@[simp] theorem State.bitFlags_bAlt (s : State) (v : Bool) : (s.bitFlags v).bAlt = s.bAlt := rfl
@[simp] theorem State.bitFlags_cAlt (s : State) (v : Bool) : (s.bitFlags v).cAlt = s.cAlt := rfl
@[simp] theorem State.bitFlags_dAlt (s : State) (v : Bool) : (s.bitFlags v).dAlt = s.dAlt := rfl
@[simp] theorem State.bitFlags_eAlt (s : State) (v : Bool) : (s.bitFlags v).eAlt = s.eAlt := rfl
@[simp] theorem State.bitFlags_hAlt (s : State) (v : Bool) : (s.bitFlags v).hAlt = s.hAlt := rfl
@[simp] theorem State.bitFlags_lAlt (s : State) (v : Bool) : (s.bitFlags v).lAlt = s.lAlt := rfl
@[simp] theorem State.bitFlags_ix (s : State) (v : Bool) : (s.bitFlags v).ix = s.ix := rfl
@[simp] theorem State.bitFlags_iy (s : State) (v : Bool) : (s.bitFlags v).iy = s.iy := rfl
@[simp] theorem State.bitFlags_sp (s : State) (v : Bool) : (s.bitFlags v).sp = s.sp := rfl
@[simp] theorem State.bitFlags_pc (s : State) (v : Bool) : (s.bitFlags v).pc = s.pc := rfl
@[simp] theorem State.bitFlags_i (s : State) (v : Bool) : (s.bitFlags v).i = s.i := rfl
@[simp] theorem State.bitFlags_r (s : State) (v : Bool) : (s.bitFlags v).r = s.r := rfl
@[simp] theorem State.bitFlags_mem (s : State) (v : Bool) : (s.bitFlags v).mem = s.mem := rfl
@[simp] theorem State.bitFlags_status (s : State) (v : Bool) : (s.bitFlags v).status = s.status := rfl
@[simp] theorem State.bitFlags_params (s : State) (v : Bool) : (s.bitFlags v).params = s.params := rfl
@[simp] theorem State.bitFlags_ioTrace (s : State) (v : Bool) : (s.bitFlags v).ioTrace = s.ioTrace := rfl
@[simp] theorem State.bitFlags_draws (s : State) (v : Bool) : (s.bitFlags v).draws = s.draws + 4 := rfl

@[simp] theorem State.byteFlags_a (s : State) (v : Byte) : (s.byteFlags v).a = s.a := rfl
@[simp] theorem State.byteFlags_b (s : State) (v : Byte) : (s.byteFlags v).b = s.b := rfl
@[simp] theorem State.byteFlags_c (s : State) (v : Byte) : (s.byteFlags v).c = s.c := rfl
@[simp] theorem State.byteFlags_d (s : State) (v : Byte) : (s.byteFlags v).d = s.d := rfl
@[simp] theorem State.byteFlags_e (s : State) (v : Byte) : (s.byteFlags v).e = s.e := rfl
@[simp] theorem State.byteFlags_h (s : State) (v : Byte) : (s.byteFlags v).h = s.h := rfl
@[simp] theorem State.byteFlags_l (s : State) (v : Byte) : (s.byteFlags v).l = s.l := rfl
@[simp] theorem State.byteFlags_aAlt (s : State) (v : Byte) : (s.byteFlags v).aAlt = s.aAlt := rfl
@[simp] theorem State.byteFlags_fAlt (s : State) (v : Byte) : (s.byteFlags v).fAlt = s.fAlt := rfl
@[simp] theorem State.byteFlags_bAlt (s : State) (v : Byte) : (s.byteFlags v).bAlt = s.bAlt := rfl
@[simp] theorem State.byteFlags_cAlt (s : State) (v : Byte) : (s.byteFlags v).cAlt = s.cAlt := rfl
@[simp] theorem State.byteFlags_dAlt (s : State) (v : Byte) : (s.byteFlags v).dAlt = s.dAlt := rfl
@[simp] theorem State.byteFlags_eAlt (s : State) (v : Byte) : (s.byteFlags v).eAlt = s.eAlt := rfl
@[simp] theorem State.byteFlags_hAlt (s : State) (v : Byte) : (s.byteFlags v).hAlt = s.hAlt := rfl
@[simp] theorem State.byteFlags_lAlt (s : State) (v : Byte) : (s.byteFlags v).lAlt = s.lAlt := rfl
@[simp] theorem State.byteFlags_ix (s : State) (v : Byte) : (s.byteFlags v).ix = s.ix := rfl
@[simp] theorem State.byteFlags_iy (s : State) (v : Byte) : (s.byteFlags v).iy = s.iy := rfl
@[simp] theorem State.byteFlags_sp (s : State) (v : Byte) : (s.byteFlags v).sp = s.sp := rfl
@[simp] theorem State.byteFlags_pc (s : State) (v : Byte) : (s.byteFlags v).pc = s.pc := rfl
@[simp] theorem State.byteFlags_i (s : State) (v : Byte) : (s.byteFlags v).i = s.i := rfl
@[simp] theorem State.byteFlags_r (s : State) (v : Byte) : (s.byteFlags v).r = s.r := rfl
@[simp] theorem State.byteFlags_mem (s : State) (v : Byte) : (s.byteFlags v).mem = s.mem := rfl
@[simp] theorem State.byteFlags_status (s : State) (v : Byte) : (s.byteFlags v).status = s.status := rfl
@[simp] theorem State.byteFlags_params (s : State) (v : Byte) : (s.byteFlags v).params = s.params := rfl
@[simp] theorem State.byteFlags_ioTrace (s : State) (v : Byte) : (s.byteFlags v).ioTrace = s.ioTrace := rfl
@[simp] theorem State.byteFlags_draws (s : State) (v : Byte) : (s.byteFlags v).draws = s.draws + 2 := rfl

@[simp] theorem State.loadedFlags_a (s : State) (v : Byte) : (s.loadedFlags v).a = s.a := rfl
@[simp] theorem State.loadedFlags_b (s : State) (v : Byte) : (s.loadedFlags v).b = s.b := rfl
@[simp] theorem State.loadedFlags_c (s : State) (v : Byte) : (s.loadedFlags v).c = s.c := rfl
@[simp] theorem State.loadedFlags_d (s : State) (v : Byte) : (s.loadedFlags v).d = s.d := rfl
@[simp] theorem State.loadedFlags_e (s : State) (v : Byte) : (s.loadedFlags v).e = s.e := rfl
@[simp] theorem State.loadedFlags_h (s : State) (v : Byte) : (s.loadedFlags v).h = s.h := rfl
@[simp] theorem State.loadedFlags_l (s : State) (v : Byte) : (s.loadedFlags v).l = s.l := rfl
@[simp] theorem State.loadedFlags_aAlt (s : State) (v : Byte) : (s.loadedFlags v).aAlt = s.aAlt := rfl
@[simp] theorem State.loadedFlags_fAlt (s : State) (v : Byte) : (s.loadedFlags v).fAlt = s.fAlt := rfl
@[simp] theorem State.loadedFlags_bAlt (s : State) (v : Byte) : (s.loadedFlags v).bAlt = s.bAlt := rfl
@[simp] theorem State.loadedFlags_cAlt (s : State) (v : Byte) : (s.loadedFlags v).cAlt = s.cAlt := rfl
@[simp] theorem State.loadedFlags_dAlt (s : State) (v : Byte) : (s.loadedFlags v).dAlt = s.dAlt := rfl
@[simp] theorem State.loadedFlags_eAlt (s : State) (v : Byte) : (s.loadedFlags v).eAlt = s.eAlt := rfl
@[simp] theorem State.loadedFlags_hAlt (s : State) (v : Byte) : (s.loadedFlags v).hAlt = s.hAlt := rfl
@[simp] theorem State.loadedFlags_lAlt (s : State) (v : Byte) : (s.loadedFlags v).lAlt = s.lAlt := rfl
@[simp] theorem State.loadedFlags_ix (s : State) (v : Byte) : (s.loadedFlags v).ix = s.ix := rfl
@[simp] theorem State.loadedFlags_iy (s : State) (v : Byte) : (s.loadedFlags v).iy = s.iy := rfl
@[simp] theorem State.loadedFlags_sp (s : State) (v : Byte) : (s.loadedFlags v).sp = s.sp := rfl
@[simp] theorem State.loadedFlags_pc (s : State) (v : Byte) : (s.loadedFlags v).pc = s.pc := rfl
@[simp] theorem State.loadedFlags_i (s : State) (v : Byte) : (s.loadedFlags v).i = s.i := rfl
@[simp] theorem State.loadedFlags_r (s : State) (v : Byte) : (s.loadedFlags v).r = s.r := rfl
@[simp] theorem State.loadedFlags_mem (s : State) (v : Byte) : (s.loadedFlags v).mem = s.mem := rfl
@[simp] theorem State.loadedFlags_status (s : State) (v : Byte) : (s.loadedFlags v).status = s.status := rfl
@[simp] theorem State.loadedFlags_params (s : State) (v : Byte) : (s.loadedFlags v).params = s.params := rfl
@[simp] theorem State.loadedFlags_ioTrace (s : State) (v : Byte) : (s.loadedFlags v).ioTrace = s.ioTrace := rfl
@[simp] theorem State.loadedFlags_draws (s : State) (v : Byte) : (s.loadedFlags v).draws = s.draws + 4 := rfl

@[simp] theorem State.transferFlags_a (s : State) : (s.transferFlags).a = s.a := rfl
@[simp] theorem State.transferFlags_b (s : State) : (s.transferFlags).b = s.b := rfl
@[simp] theorem State.transferFlags_c (s : State) : (s.transferFlags).c = s.c := rfl
@[simp] theorem State.transferFlags_d (s : State) : (s.transferFlags).d = s.d := rfl
@[simp] theorem State.transferFlags_e (s : State) : (s.transferFlags).e = s.e := rfl
@[simp] theorem State.transferFlags_h (s : State) : (s.transferFlags).h = s.h := rfl
@[simp] theorem State.transferFlags_l (s : State) : (s.transferFlags).l = s.l := rfl
@[simp] theorem State.transferFlags_aAlt (s : State) : (s.transferFlags).aAlt = s.aAlt := rfl
@[simp] theorem State.transferFlags_fAlt (s : State) : (s.transferFlags).fAlt = s.fAlt := rfl
@[simp] theorem State.transferFlags_bAlt (s : State) : (s.transferFlags).bAlt = s.bAlt := rfl
@[simp] theorem State.transferFlags_cAlt (s : State) : (s.transferFlags).cAlt = s.cAlt := rfl
@[simp] theorem State.transferFlags_dAlt (s : State) : (s.transferFlags).dAlt = s.dAlt := rfl
@[simp] theorem State.transferFlags_eAlt (s : State) : (s.transferFlags).eAlt = s.eAlt := rfl
@[simp] theorem State.transferFlags_hAlt (s : State) : (s.transferFlags).hAlt = s.hAlt := rfl
@[simp] theorem State.transferFlags_lAlt (s : State) : (s.transferFlags).lAlt = s.lAlt := rfl
@[simp] theorem State.transferFlags_ix (s : State) : (s.transferFlags).ix = s.ix := rfl
@[simp] theorem State.transferFlags_iy (s : State) : (s.transferFlags).iy = s.iy := rfl
@[simp] theorem State.transferFlags_sp (s : State) : (s.transferFlags).sp = s.sp := rfl
@[simp] theorem State.transferFlags_pc (s : State) : (s.transferFlags).pc = s.pc := rfl
@[simp] theorem State.transferFlags_i (s : State) : (s.transferFlags).i = s.i := rfl
@[simp] theorem State.transferFlags_r (s : State) : (s.transferFlags).r = s.r := rfl
@[simp] theorem State.transferFlags_mem (s : State) : (s.transferFlags).mem = s.mem := rfl
@[simp] theorem State.transferFlags_status (s : State) : (s.transferFlags).status = s.status := rfl
@[simp] theorem State.transferFlags_params (s : State) : (s.transferFlags).params = s.params := rfl
@[simp] theorem State.transferFlags_ioTrace (s : State) : (s.transferFlags).ioTrace = s.ioTrace := rfl
@[simp] theorem State.transferFlags_draws (s : State) : (s.transferFlags).draws = s.draws + 2 := rfl

@[simp] theorem State.blockIoFlags_a (s : State) : (s.blockIoFlags).a = s.a := rfl
@[simp] theorem State.blockIoFlags_b (s : State) : (s.blockIoFlags).b = s.b := rfl
@[simp] theorem State.blockIoFlags_c (s : State) : (s.blockIoFlags).c = s.c := rfl
@[simp] theorem State.blockIoFlags_d (s : State) : (s.blockIoFlags).d = s.d := rfl
@[simp] theorem State.blockIoFlags_e (s : State) : (s.blockIoFlags).e = s.e := rfl
@[simp] theorem State.blockIoFlags_h (s : State) : (s.blockIoFlags).h = s.h := rfl
@[simp] theorem State.blockIoFlags_l (s : State) : (s.blockIoFlags).l = s.l := rfl
@[simp] theorem State.blockIoFlags_aAlt (s : State) : (s.blockIoFlags).aAlt = s.aAlt := rfl
@[simp] theorem State.blockIoFlags_fAlt (s : State) : (s.blockIoFlags).fAlt = s.fAlt := rfl
@[simp] theorem State.blockIoFlags_bAlt (s : State) : (s.blockIoFlags).bAlt = s.bAlt := rfl
@[simp] theorem State.blockIoFlags_cAlt (s : State) : (s.blockIoFlags).cAlt = s.cAlt := rfl
@[simp] theorem State.blockIoFlags_dAlt (s : State) : (s.blockIoFlags).dAlt = s.dAlt := rfl
@[simp] theorem State.blockIoFlags_eAlt (s : State) : (s.blockIoFlags).eAlt = s.eAlt := rfl
@[simp] theorem State.blockIoFlags_hAlt (s : State) : (s.blockIoFlags).hAlt = s.hAlt := rfl
@[simp] theorem State.blockIoFlags_lAlt (s : State) : (s.blockIoFlags).lAlt = s.lAlt := rfl
@[simp] theorem State.blockIoFlags_ix (s : State) : (s.blockIoFlags).ix = s.ix := rfl
@[simp] theorem State.blockIoFlags_iy (s : State) : (s.blockIoFlags).iy = s.iy := rfl
@[simp] theorem State.blockIoFlags_sp (s : State) : (s.blockIoFlags).sp = s.sp := rfl
@[simp] theorem State.blockIoFlags_pc (s : State) : (s.blockIoFlags).pc = s.pc := rfl
@[simp] theorem State.blockIoFlags_i (s : State) : (s.blockIoFlags).i = s.i := rfl
@[simp] theorem State.blockIoFlags_r (s : State) : (s.blockIoFlags).r = s.r := rfl
@[simp] theorem State.blockIoFlags_mem (s : State) : (s.blockIoFlags).mem = s.mem := rfl
@[simp] theorem State.blockIoFlags_status (s : State) : (s.blockIoFlags).status = s.status := rfl
@[simp] theorem State.blockIoFlags_params (s : State) : (s.blockIoFlags).params = s.params := rfl
@[simp] theorem State.blockIoFlags_ioTrace (s : State) : (s.blockIoFlags).ioTrace = s.ioTrace := rfl
@[simp] theorem State.blockIoFlags_draws (s : State) : (s.blockIoFlags).draws = s.draws + 5 := rfl

end Sys2Proof.Machine
end

