-- ==== Sys2Proof/Laws/Memory.lean ====
section
/-!
SUPPORT. Laws.Memory: the laws of memory (20_memory.md R71, R73, R83): a read after a write of the same cell gives the
value written, a write leaves every other cell alone, every write keeps the canonical form, and two memories in
canonical form that read alike are equal.
-/
namespace Sys2Proof.Machine

namespace Memory

@[simp] theorem read_nil (addr : Nat) : Memory.read [] addr = unlisted := rfl

theorem read_cons (cell : Host.Cell) (rest : Memory) (addr : Nat) :
    Memory.read (cell :: rest) addr = if cell.1 = addr then cell.2 else Memory.read rest addr := rfl

theorem erase_cons (cell : Host.Cell) (rest : Memory) (addr : Nat) :
    erase (cell :: rest) addr = if cell.1 = addr then erase rest addr else cell :: erase rest addr := by
  by_cases h : cell.1 = addr <;> simp [erase, h]

theorem wf_cons {cell : Host.Cell} {rest : Memory} :
    wf (cell :: rest) = true ↔
      cell.1 < 65536 ∧ cell.2 ≠ unlisted ∧ (∀ later ∈ rest, cell.1 < later.1) ∧ wf rest = true := by
  simp [wf, and_assoc]

/-! ## Reading -/

/-- An address no cell lists is unlisted. -/
theorem read_unlisted {m : Memory} {addr : Nat} (h : ∀ cell ∈ m, cell.1 ≠ addr) : m.read addr = unlisted := by
  induction m with
  | nil => rfl
  | cons cell rest ih =>
    rw [read_cons, if_neg (h cell (by simp))]
    exact ih fun later hl => h later (by simp [hl])

theorem mem_erase {m : Memory} {addr : Nat} {cell : Host.Cell} : cell ∈ m.erase addr ↔ cell ∈ m ∧ cell.1 ≠ addr := by
  simp [erase]

theorem read_erase_other {m : Memory} {addr other : Nat} (h : other ≠ addr) : (m.erase addr).read other = m.read other := by
  induction m with
  | nil => rfl
  | cons cell rest ih =>
    rw [erase_cons]
    split
    · next heq => rw [ih, read_cons, if_neg (by omega)]
    · rw [read_cons, read_cons, ih]

theorem read_insert_same {m : Memory} {addr : Nat} (v : Byte) (h : ∀ cell ∈ m, cell.1 ≠ addr) :
    (m.insert addr v).read addr = v := by
  induction m with
  | nil => simp [insert, read_cons]
  | cons cell rest ih =>
    simp only [insert]
    split
    · simp [read_cons]
    · rw [read_cons, if_neg (h cell (by simp))]
      exact ih fun later hl => h later (by simp [hl])

theorem read_insert_other {m : Memory} {addr other : Nat} (v : Byte) (h : other ≠ addr) :
    (m.insert addr v).read other = m.read other := by
  induction m with
  | nil => simp [insert, read_cons, Ne.symm h]
  | cons cell rest ih =>
    simp only [insert]
    split
    · rw [read_cons, if_neg (Ne.symm h)]
    · rw [read_cons, read_cons, ih]

/-- R73: a read after a write of the same cell gives the value written. -/
@[simp] theorem read_write_same (m : Memory) (addr : Nat) (v : Byte) : (m.write addr v).read addr = v := by
  unfold write
  split
  · next hv => rw [hv]; exact read_unlisted fun cell hc => (mem_erase.mp hc).2
  · exact read_insert_same v fun cell hc => (mem_erase.mp hc).2

/-- R73: a write leaves every other cell alone. -/
theorem read_write_other (m : Memory) {addr other : Nat} (v : Byte) (h : other ≠ addr) :
    (m.write addr v).read other = m.read other := by
  unfold write
  split
  · exact read_erase_other h
  · rw [read_insert_other v h, read_erase_other h]

/-! ## The canonical form -/

theorem erase_wf {m : Memory} (hm : wf m = true) (addr : Nat) : wf (m.erase addr) = true := by
  induction m with
  | nil => rfl
  | cons cell rest ih =>
    obtain ⟨hc, hv, hlater, hrest⟩ := wf_cons.mp hm
    rw [erase_cons]
    split
    · exact ih hrest
    · exact wf_cons.mpr ⟨hc, hv, fun later hl => hlater later (mem_erase.mp hl).1, ih hrest⟩

theorem mem_insert {m : Memory} {addr : Nat} {v : Byte} {cell : Host.Cell} (h : cell ∈ m.insert addr v) :
    cell = (addr, v) ∨ cell ∈ m := by
  induction m with
  | nil => simpa [insert] using h
  | cons head rest ih =>
    simp only [insert] at h
    split at h
    · exact List.mem_cons.mp h
    · rcases List.mem_cons.mp h with h | h
      · exact .inr (h ▸ List.mem_cons_self ..)
      · exact (ih h).imp_right (List.mem_cons_of_mem _)

theorem insert_wf {m : Memory} (hm : wf m = true) {addr : Nat} {v : Byte} (ha : addr < 65536) (hv : v ≠ unlisted)
    (hnew : ∀ cell ∈ m, cell.1 ≠ addr) : wf (m.insert addr v) = true := by
  induction m with
  | nil => exact wf_cons.mpr ⟨ha, hv, by simp, rfl⟩
  | cons cell rest ih =>
    obtain ⟨hc, hcv, hlater, hrest⟩ := wf_cons.mp hm
    have hne := hnew cell (by simp)
    simp only [insert]
    split
    · next hlt =>
      refine wf_cons.mpr ⟨ha, hv, fun later hl => ?_, hm⟩
      rcases List.mem_cons.mp hl with rfl | hl
      · exact hlt
      · exact lt_trans hlt (hlater later hl)
    · next hge =>
      refine wf_cons.mpr ⟨hc, hcv, fun later hl => ?_, ih hrest fun c hcm => hnew c (by simp [hcm])⟩
      rcases mem_insert hl with rfl | hl
      · show cell.1 < addr
        omega
      · exact hlater later hl

/-- Every write keeps the canonical form. -/
theorem write_wf {m : Memory} (hm : wf m = true) {addr : Nat} (ha : addr < 65536) (v : Byte) :
    wf (m.write addr v) = true := by
  unfold write
  split
  · exact erase_wf hm addr
  · next hv => exact insert_wf (erase_wf hm addr) ha hv fun cell hc => (mem_erase.mp hc).2

/-- A listed cell of a memory in canonical form is not below the first one. -/
theorem read_below {m : Memory} {addr : Nat} (h : ∀ cell ∈ m, addr < cell.1) : m.read addr = unlisted :=
  read_unlisted fun cell hc => Nat.ne_of_gt (h cell hc)

/-- The first address two memories in canonical form list is the same where they read alike. -/
theorem first_not_below {c c' : Host.Cell} {rest rest' : Memory} (hm : wf (c :: rest) = true) (hn : wf (c' :: rest') = true)
    (h : ∀ addr, Memory.read (c :: rest) addr = Memory.read (c' :: rest') addr) : ¬ c.1 < c'.1 := by
  intro hlt
  have hb : Memory.read (c' :: rest') c.1 = unlisted := by
    refine read_below fun later hl => ?_
    rcases List.mem_cons.mp hl with rfl | hl
    · exact hlt
    · exact lt_trans hlt ((wf_cons.mp hn).2.2.1 later hl)
  have hc := h c.1
  rw [hb, read_cons, if_pos rfl] at hc
  exact (wf_cons.mp hm).2.1 hc

/-- Two memories in canonical form that read alike are equal: equal memories are equal data. -/
theorem eq_of_read_eq {m n : Memory} (hm : wf m = true) (hn : wf n = true) (h : ∀ addr, m.read addr = n.read addr) :
    m = n := by
  induction m generalizing n with
  | nil =>
    cases n with
    | nil => rfl
    | cons cell rest =>
      have hc := h cell.1
      rw [read_nil, read_cons, if_pos rfl] at hc
      exact absurd hc.symm (wf_cons.mp hn).2.1
  | cons c rest ih =>
    cases n with
    | nil =>
      have hc := h c.1
      rw [read_nil, read_cons, if_pos rfl] at hc
      exact absurd hc (wf_cons.mp hm).2.1
    | cons c' rest' =>
      have hle := first_not_below hm hn h
      have hge := first_not_below hn hm fun addr => (h addr).symm
      have hfst : c.1 = c'.1 := by omega
      have hsnd : c.2 = c'.2 := by
        have hc := h c.1
        rwa [read_cons, if_pos rfl, read_cons, if_pos hfst.symm] at hc
      obtain ⟨-, -, hlater, hrest⟩ := wf_cons.mp hm
      obtain ⟨-, -, hlater', hrest'⟩ := wf_cons.mp hn
      have hsame : rest = rest' := by
        refine ih hrest hrest' fun addr => ?_
        by_cases ha : c.1 = addr
        · rw [read_below fun later hl => ha ▸ hlater later hl,
            read_below fun later hl => by rw [← ha, hfst]; exact hlater' later hl]
        · have hc := h addr
          rwa [read_cons, if_neg ha, read_cons, if_neg (hfst ▸ ha)] at hc
      rw [hsame, Prod.ext hfst hsnd]

end Memory

/-! ## Memory of a state -/

theorem reset_inv : State.reset.Inv := rfl

/-- A state with the same memory keeps the invariant. -/
theorem State.inv_of_mem_eq {s t : State} (h : s.Inv) (hm : t.mem = s.mem) : t.Inv := by
  unfold State.Inv; rw [hm]; exact h

theorem State.writeByte_inv {s : State} (h : s.Inv) (addr : Word) (v : Byte) : (s.writeByte addr v).Inv :=
  Memory.write_wf h addr.isLt v

theorem State.writeWord_inv {s : State} (h : s.Inv) (addr v : Word) : (s.writeWord addr v).Inv :=
  State.writeByte_inv (s := s.writeByte addr (loByte v)) (State.writeByte_inv h _ _) _ _

theorem State.push16_inv {s : State} (h : s.Inv) (v : Word) : (s.push16 v).Inv := by
  unfold State.push16
  exact State.writeByte_inv (State.writeByte_inv h _ _) _ _

theorem State.placeBytes_inv {s : State} (h : s.Inv) (addr : Word) (bytes : List Byte) : (s.placeBytes addr bytes).Inv := by
  induction bytes generalizing s addr with
  | nil => exact h
  | cons v rest ih => exact ih (State.writeByte_inv h addr v) (addr + 1)

/-- R73: the byte written is the byte read. -/
@[simp] theorem State.readByte_writeByte_same (s : State) (addr : Word) (v : Byte) :
    (s.writeByte addr v).readByte addr = v :=
  Memory.read_write_same s.mem addr.toNat v

/-- R73: every other byte reads as before. -/
theorem State.readByte_writeByte_other (s : State) {addr other : Word} (v : Byte) (hne : other ≠ addr) :
    (s.writeByte addr v).readByte other = s.readByte other :=
  Memory.read_write_other s.mem v fun h => hne (BitVec.eq_of_toNat_eq h)

/-- R73: a read after a write, in one equation. -/
theorem State.readByte_writeByte (s : State) (addr other : Word) (v : Byte) :
    (s.writeByte addr v).readByte other = if other = addr then v else s.readByte other := by
  split
  · next heq => rw [heq, State.readByte_writeByte_same]
  · next hne => exact State.readByte_writeByte_other s v hne

/-- A state with the same memory reads alike. -/
theorem State.readByte_of_mem_eq {s t : State} (hm : t.mem = s.mem) (addr : Word) : t.readByte addr = s.readByte addr := by
  unfold State.readByte; rw [hm]

/-- R75: the two bytes a word store leaves, and every other byte as before. -/
theorem State.readByte_writeWord (s : State) (addr v other : Word) :
    (s.writeWord addr v).readByte other =
      if other = addr + 1 then hiByte v else if other = addr then loByte v else s.readByte other := by
  unfold State.writeWord
  rw [State.readByte_writeByte, State.readByte_writeByte]

/-- R206, R360: the two bytes a push leaves, and every other byte as before. -/
theorem State.readByte_push16 (s : State) (v other : Word) :
    (s.push16 v).readByte other =
      if other = s.sp - 2 then loByte v else if other = s.sp - 2 + 1 then hiByte v else s.readByte other := by
  unfold State.push16
  rw [State.readByte_writeByte, State.readByte_writeByte]
  rfl

/-! ## The two bytes of a word (R74, R75, R360) -/

theorem word_ne_succ (a : Word) : a ≠ a + 1 := by bv_omega

theorem word_sub_two_succ (a : Word) : a - 2 + 1 = a - 1 := by bv_omega

theorem word_sub_one_ne_sub_two (a : Word) : a - 1 ≠ a - 2 := by bv_omega

/-- R74: a word read, as a number. -/
theorem State.readWord_toNat (s : State) (addr : Word) :
    (s.readWord addr).toNat = (s.readByte (addr + 1)).toNat * 256 + (s.readByte addr).toNat :=
  joinBytes_toNat _ _

/-- R75: the byte at the lower address is the low one. -/
theorem State.writeWord_low (s : State) (addr v : Word) : (s.writeWord addr v).readByte addr = loByte v := by
  rw [State.readByte_writeWord, if_neg (word_ne_succ addr), if_pos rfl]

/-- R75: the byte at the higher address is the high one. -/
theorem State.writeWord_high (s : State) (addr v : Word) : (s.writeWord addr v).readByte (addr + 1) = hiByte v := by
  rw [State.readByte_writeWord, if_pos rfl]

/-- R74, R75: a word written reads back. -/
theorem State.readWord_writeWord (s : State) (addr v : Word) : (s.writeWord addr v).readWord addr = v := by
  unfold State.readWord
  rw [State.writeWord_low, State.writeWord_high, joinBytes_hiByte_loByte]

/-- R360: the byte a push leaves below the old SP is the high one. -/
theorem State.push16_high (s : State) (v : Word) : (s.push16 v).readByte (s.sp - 1) = hiByte v := by
  rw [State.readByte_push16, if_neg (word_sub_one_ne_sub_two s.sp), if_pos (word_sub_two_succ s.sp).symm]

/-- R360: the byte a push leaves at the new SP is the low one. -/
theorem State.push16_low (s : State) (v : Word) : (s.push16 v).readByte (s.sp - 2) = loByte v := by
  rw [State.readByte_push16, if_pos rfl]

/-- R360: what is pushed is popped, across the wrap of SP as well. -/
theorem State.popValue_push16 (s : State) (v : Word) : (s.push16 v).popValue = v := by
  show joinBytes ((s.push16 v).readByte (s.sp - 2 + 1)) ((s.push16 v).readByte (s.sp - 2)) = v
  rw [word_sub_two_succ, State.push16_high, State.push16_low, joinBytes_hiByte_loByte]

/-! ## Bytes placed at rising addresses -/

theorem ofNat_succ_word (k : Nat) : BitVec.ofNat 16 (k + 1) = 1 + BitVec.ofNat 16 k := by
  apply BitVec.eq_of_toNat_eq
  simp [BitVec.toNat_add]
  omega

theorem State.readByte_placeBytes_other {bytes : List Byte} {s : State} {addr other : Word}
    (h : ∀ k < bytes.length, other ≠ addr + BitVec.ofNat 16 k) : (s.placeBytes addr bytes).readByte other = s.readByte other := by
  induction bytes generalizing s addr with
  | nil => rfl
  | cons v rest ih =>
    refine (ih (s := s.writeByte addr v) fun k hk => ?_).trans (s.readByte_writeByte_other v (by simpa using h 0 (by simp)))
    have := h (k + 1) (by simpa using hk)
    rwa [ofNat_succ_word, ← BitVec.add_assoc] at this

/-- The bytes placed read back, as many as memory has room for. -/
theorem State.readByte_placeBytes {bytes : List Byte} (s : State) (addr : Word) (hlen : bytes.length ≤ 65536) (k : Nat)
    (hk : k < bytes.length) : bytes[k]? = some ((s.placeBytes addr bytes).readByte (addr + BitVec.ofNat 16 k)) := by
  induction bytes generalizing s addr k with
  | nil => nomatch hk
  | cons v rest ih =>
    simp only [List.length_cons] at hlen hk
    change _ = some (((s.writeByte addr v).placeBytes (addr + 1) rest).readByte _)
    cases k with
    | zero =>
      rw [State.readByte_placeBytes_other]
      · simp
      · intro j hj heq
        have := congrArg BitVec.toNat heq
        simp [BitVec.toNat_add] at this
        omega
    | succ k =>
      rw [ofNat_succ_word, ← BitVec.add_assoc]
      simpa using ih (s.writeByte addr v) (addr + 1) (by omega) k (by omega)

theorem State.placeBytes_unchanged (s : State) (addr : Word) (bytes : List Byte) :
    Unchanged [.memory] s (s.placeBytes addr bytes) := by
  induction bytes generalizing s addr with
  | nil => intro k _; cases k <;> first | rfl | exact fun _ => rfl
  | cons v rest ih =>
    intro k hk
    have := ih (s.writeByte addr v) (addr + 1) k hk
    cases k <;> first | exact this | exact absurd (List.mem_singleton.mpr rfl) hk

end Sys2Proof.Machine
end

