-- ==== Sys2Proof/Laws/Operands.lean ====
section
/-!
SUPPORT. Laws.Operands: the register views (10_state.md R32, R40 to R43) read back what was written, and F is its byte
(R37).
-/
namespace Sys2Proof.Machine

/-! ## F as a byte -/

@[simp] theorem Flags.ofByte_toByte (g : Flags) : Flags.ofByte g.toByte = g := by
  rcases g with ⟨s, z, x5, h, x3, pv, n, c⟩
  revert s z x5 h x3 pv n c
  decide

@[simp] theorem Flags.toByte_ofByte (v : Byte) : (Flags.ofByte v).toByte = v := by
  revert v
  decide

/-! ## Pairs -/

@[simp] theorem State.bc_setBC (s : State) (v : Word) : (s.setBC v).bc = v := by simp [State.bc]

@[simp] theorem State.de_setDE (s : State) (v : Word) : (s.setDE v).de = v := by simp [State.de]

@[simp] theorem State.hl_setHL (s : State) (v : Word) : (s.setHL v).hl = v := by simp [State.hl]

@[simp] theorem State.af_setAF (s : State) (v : Word) : (s.setAF v).af = v := by simp [State.af]

/-- R41: the law of the pair field `ss`. -/
@[simp] theorem State.getSS_setSS (s : State) (k : RegSS) (v : Word) : (s.setSS k v).getSS k = v := by
  cases k
  · exact State.bc_setBC s v
  · exact State.de_setDE s v
  · exact State.hl_setHL s v
  · rfl

/-- R42: the same of the pair field `qq`. -/
@[simp] theorem State.getQQ_setQQ (s : State) (k : RegQQ) (v : Word) : (s.setQQ k v).getQQ k = v := by
  cases k
  · exact State.bc_setBC s v
  · exact State.de_setDE s v
  · exact State.hl_setHL s v
  · exact State.af_setAF s v

/-- R40: the register written reads back. -/
@[simp] theorem State.getR_setR_same (s : State) (k : Reg) (v : Byte) : (s.setR k v).getR k = v := by
  cases k <;> rfl

/-- R40: every other register reads as before. -/
theorem State.getR_setR_other (s : State) {k other : Reg} (v : Byte) (h : other ≠ k) :
    (s.setR k v).getR other = s.getR other := by
  cases k <;> cases other <;> first | rfl | exact absurd rfl h

/-! ## Addresses -/

/-- R9, R113, R176: a word plus a signed byte, mod 2^16. -/
theorem word_add_sext16 (w : Word) (d : Byte) : ((w + sext16 d).toNat : Int) = (w.toNat + d.toInt) % 65536 := by
  have hw := w.isLt
  have hlow := BitVec.le_toInt (x := d)
  have hhigh := BitVec.toInt_lt (x := d)
  have hext : (sext16 d).toNat = (d.toInt % 65536).toNat := by simp [sext16, BitVec.signExtend, BitVec.toNat_ofInt]
  rw [BitVec.toNat_add, hext]
  omega

end Sys2Proof.Machine
end

