-- ==== Sys2Proof/Laws/Ops.lean ====
section
/-!
SUPPORT. Laws.Ops: for each shared operation of Machine/Ops.lean, Machine/Operands.lean, Machine/Cycle.lean and
Machine/HostPort.lean one lemma that says everything it can do, so that callers cite it instead of unfolding it.
-/
namespace Sys2Proof.Machine

/-! ## Word accesses (R76) -/

theorem State.wordForbidden_eq_false {s : State} {addr : Word} : s.wordForbidden addr = false ↔ s.wordAllowed addr := by
  unfold State.wordForbidden State.wordAllowed
  cases s.params.wrapFfff <;> simp

/-- R76: an instruction with a word access completes exactly where the access has a meaning, and is refused elsewhere. -/
theorem State.afterWordAccess_cases (s : State) (addr : Word) (t : State) :
    (s.wordAllowed addr ∧ s.afterWordAccess addr t = .next t) ∨
    (¬ s.wordAllowed addr ∧ s.afterWordAccess addr t = .refused .wrapsAtTop) := by
  unfold State.afterWordAccess
  rcases h : s.wordForbidden addr with _ | _
  · exact .inl ⟨State.wordForbidden_eq_false.mp h, rfl⟩
  · refine .inr ⟨fun hw => ?_, rfl⟩
    rw [State.wordForbidden_eq_false.mpr hw] at h
    nomatch h

theorem State.afterWordAccess_of_allowed {s : State} {addr : Word} (t : State) (h : s.wordAllowed addr) :
    s.afterWordAccess addr t = .next t := by
  rcases State.afterWordAccess_cases s addr t with ⟨-, h'⟩ | ⟨h', -⟩
  · exact h'
  · exact absurd h h'

theorem State.afterWordAccess_of_not_allowed {s : State} {addr : Word} (t : State) (h : ¬ s.wordAllowed addr) :
    s.afterWordAccess addr t = .refused .wrapsAtTop := by
  rcases State.afterWordAccess_cases s addr t with ⟨h', -⟩ | ⟨-, h'⟩
  · exact absurd h' h
  · exact h'

/-- An instruction with a word access that answers a next state answers the one given. -/
theorem State.afterWordAccess_next {s t t' : State} {addr : Word} (h : s.afterWordAccess addr t = .next t') : t' = t := by
  rcases State.afterWordAccess_cases s addr t with ⟨-, h'⟩ | ⟨-, h'⟩ <;> rw [h'] at h
  · exact (Host.Outcome.next.inj h).symm
  · nomatch h

/-- The word an instruction accesses does not depend on PC and R, which the fetch moves. -/
theorem wordAccess_fetched (i : Instr) (s : State) (pc : Word) (r : Byte) :
    wordAccess i { s with pc := pc, r := r } = wordAccess i s := by
  cases i <;> rfl

theorem wordAccess_callCC (cc : Cond) (nn : Word) (s : State) :
    wordAccess (.callCC cc nn) s = if s.cond cc = true then some (s.sp - 2) else none := rfl

theorem wordAccess_retCC (cc : Cond) (s : State) :
    wordAccess (.retCC cc) s = if s.cond cc = true then some s.sp else none := rfl

/-! ## The host's moves (R21) -/

theorem State.hostMove_of_running {s : State} (h : s.status = .running) (t : Result) :
    s.hostMove t = .fault .hostMoveDuringRun := by
  unfold State.hostMove
  rw [h]

theorem State.hostMove_of_not_running {s : State} (h : s.status ≠ .running) (t : Result) : s.hostMove t = t := by
  unfold State.hostMove
  cases hs : s.status with
  | running => exact absurd hs h
  | idle => rfl
  | faulted addr bytes w => rfl

/-! ## Fetching (R13) -/

/-- R13, R36: fetching `n` bytes moves PC and R by `n` and changes nothing else. -/
theorem State.fetchBytes_state (n : Nat) (s : State) :
    (s.fetchBytes n).2 = { s with pc := s.pc + BitVec.ofNat 16 n, r := s.r + BitVec.ofNat 8 n } := by
  induction n generalizing s with
  | zero => simp [State.fetchBytes]
  | succ n ih =>
    simp only [State.fetchBytes, State.fetch8]
    rw [ih]
    have h16 : BitVec.ofNat 16 (n + 1) = 1 + BitVec.ofNat 16 n := by
      apply BitVec.eq_of_toNat_eq; simp [BitVec.toNat_add]; omega
    have h8 : BitVec.ofNat 8 (n + 1) = 1 + BitVec.ofNat 8 n := by
      apply BitVec.eq_of_toNat_eq; simp [BitVec.toNat_add]; omega
    simp only [h16, h8, BitVec.add_assoc]

theorem State.fetchBytes_length (n : Nat) (s : State) : (s.fetchBytes n).1.length = n := by
  induction n generalizing s with
  | zero => rfl
  | succ n ih => simp [State.fetchBytes, ih]

/-- R13: the `k`-th byte fetched is the one `k` above PC. -/
theorem State.fetchBytes_getElem? (n k : Nat) (s : State) (h : k < n) :
    (s.fetchBytes n).1[k]? = some (s.readByte (s.pc + BitVec.ofNat 16 k)) := by
  induction n generalizing s k with
  | zero => omega
  | succ n ih =>
    cases k with
    | zero => simp [State.fetchBytes, State.fetch8]
    | succ k =>
      simp only [State.fetchBytes, List.getElem?_cons_succ]
      rw [ih k s.fetch8.2 (by omega)]
      have h16 : BitVec.ofNat 16 (k + 1) = 1 + BitVec.ofNat 16 k := by
        apply BitVec.eq_of_toNat_eq; simp [BitVec.toNat_add]; omega
      simp only [State.fetch8, h16, BitVec.add_assoc]
      rfl

theorem State.fetchForbidden_eq_false {s : State} {len : Nat} : s.fetchForbidden len = false ↔ s.fetchAllowed len := by
  unfold State.fetchForbidden State.fetchAllowed
  cases s.params.wrapFfff <;> simp

/-! ## One step (R19, R20, R431) -/

/-- Everything a step that answers a next state can have done. -/
theorem step_next_cases {s t : State} (h : step s = .next t) :
    (s.status ≠ .running ∧ t = s) ∨
    (s.status = .running ∧ ∃ i len, s.decodeNext = .ok i len ∧ s.fetchAllowed len ∧
      exec i (s.fetchBytes len).2 = .next t) ∨
    (s.status = .running ∧ ∃ why len, s.decodeNext = .error why len ∧ s.fetchAllowed len ∧
      t = s.takeDecodeError (s.fetchBytes len).1) := by
  unfold step at h
  cases hst : s.status with
  | idle => rw [hst] at h; exact .inl ⟨by simp, (Host.Outcome.next.inj h).symm⟩
  | faulted addr bytes w => rw [hst] at h; exact .inl ⟨by simp, (Host.Outcome.next.inj h).symm⟩
  | running =>
    rw [hst] at h
    right
    simp only [State.cycle] at h
    cases hd : s.decodeNext with
    | ok i len =>
      rw [hd] at h
      rcases hf : s.fetchForbidden len with _ | _
      · simp only [Decoded.length, hf] at h
        exact .inl ⟨rfl, i, len, rfl, State.fetchForbidden_eq_false.mp hf, h⟩
      · simp only [Decoded.length, hf] at h
        nomatch h
    | error why len =>
      rw [hd] at h
      rcases hf : s.fetchForbidden len with _ | _
      · simp only [Decoded.length, hf] at h
        exact .inr ⟨rfl, why, len, rfl, State.fetchForbidden_eq_false.mp hf, (Host.Outcome.next.inj h).symm⟩
      · simp only [Decoded.length, hf] at h
        nomatch h

/-! ## The repeat mechanism (R231) -/

/-- What every iteration keeps, the loop keeps. -/
theorem repeatUntil_invariant {P : State → Prop} {body : State → State} (stop : State → Bool) (hbody : ∀ s, P s → P (body s))
    (fuel : Nat) {s : State} (hs : P s) : P (repeatUntil body stop fuel s) := by
  induction fuel generalizing s with
  | zero => exact hs
  | succ fuel ih =>
    simp only [repeatUntil]
    split
    · exact hbody s hs
    · exact ih (hbody s hs)

/-- R231: a loop that runs `k + 1` iterations, none of the first `k` of which stops it, ends in the state after the last. -/
theorem repeatUntil_eq_iterate {body : State → State} {stop : State → Bool} (k : Nat) {fuel : Nat} {s : State}
    (hfuel : k < fuel) (hgo : ∀ j, j < k → stop (body^[j + 1] s) = false) (hstop : stop (body^[k + 1] s) = true) :
    repeatUntil body stop fuel s = body^[k + 1] s := by
  induction k generalizing fuel s with
  | zero =>
    obtain ⟨fuel, rfl⟩ : ∃ f, fuel = f + 1 := ⟨fuel - 1, by omega⟩
    have : stop (body s) = true := hstop
    simp [repeatUntil, this]
  | succ k ih =>
    obtain ⟨fuel, rfl⟩ : ∃ f, fuel = f + 1 := ⟨fuel - 1, by omega⟩
    have h0 : stop (body s) = false := hgo 0 (by omega)
    simp only [repeatUntil, h0]
    exact ih (by omega) (fun j hj => hgo (j + 1) (by omega)) hstop

/-- R231, R475: the iterations counted are the iterations run. -/
theorem repeatCount_eq {body : State → State} {stop : State → Bool} (k : Nat) {fuel : Nat} {s : State}
    (hfuel : k < fuel) (hgo : ∀ j, j < k → stop (body^[j + 1] s) = false) (hstop : stop (body^[k + 1] s) = true) :
    repeatCount body stop fuel s = k + 1 := by
  induction k generalizing fuel s with
  | zero =>
    obtain ⟨fuel, rfl⟩ : ∃ f, fuel = f + 1 := ⟨fuel - 1, by omega⟩
    have : stop (body s) = true := hstop
    simp [repeatCount, this]
  | succ k ih =>
    obtain ⟨fuel, rfl⟩ : ∃ f, fuel = f + 1 := ⟨fuel - 1, by omega⟩
    have h0 : stop (body s) = false := hgo 0 (by omega)
    simp only [repeatCount, h0]
    rw [ih (by omega) (fun j hj => hgo (j + 1) (by omega)) hstop]

end Sys2Proof.Machine
end

