-- ==== Sys2Proof/Laws/Block.lean ====
section
/-!
SUPPORT. Laws.Block: what one iteration of a block instruction does to its counter and pointers, and that a repeating
instruction is as many iterations as its counter says (42_block_transfer_compare.md R231, 49_io.md R418). Callers cite these
and never unfold the repeat mechanism.
-/
namespace Sys2Proof.Machine

/-! ## One iteration -/

@[simp] theorem State.transferOnce_bc (step : Word) (s : State) : (s.transferOnce step).bc = s.bc - 1 :=
  joinBytes_hiByte_loByte (s.bc - 1)

@[simp] theorem State.transferOnce_de (step : Word) (s : State) : (s.transferOnce step).de = s.de + step :=
  joinBytes_hiByte_loByte (s.de + step)

@[simp] theorem State.transferOnce_hl (step : Word) (s : State) : (s.transferOnce step).hl = s.hl + step :=
  joinBytes_hiByte_loByte (s.hl + step)

/-- R232, R233: the byte an iteration stores, and every other byte as before. -/
theorem State.readByte_transferOnce (step : Word) (s : State) (addr : Word) :
    (s.transferOnce step).readByte addr = if addr = s.de then s.readByte s.hl else s.readByte addr :=
  State.readByte_writeByte s s.de addr (s.readByte s.hl)

@[simp] theorem State.compareOnce_bc (step : Word) (s : State) : (s.compareOnce step).bc = s.bc - 1 :=
  joinBytes_hiByte_loByte (s.bc - 1)

@[simp] theorem State.compareOnce_hl (step : Word) (s : State) : (s.compareOnce step).hl = s.hl + step :=
  joinBytes_hiByte_loByte (s.hl + step)

@[simp] theorem State.compareOnce_a (step : Word) (s : State) : (s.compareOnce step).a = s.a := rfl

@[simp] theorem State.compareOnce_mem (step : Word) (s : State) : (s.compareOnce step).mem = s.mem := rfl

@[simp] theorem State.inputOnce_b (step : Word) (s : State) : (s.inputOnce step).b = s.b - 1 := rfl

@[simp] theorem State.inputOnce_c (step : Word) (s : State) : (s.inputOnce step).c = s.c := rfl

@[simp] theorem State.inputOnce_hl (step : Word) (s : State) : (s.inputOnce step).hl = s.hl + step :=
  joinBytes_hiByte_loByte (s.hl + step)

@[simp] theorem State.inputOnce_ioTrace (step : Word) (s : State) :
    (s.inputOnce step).ioTrace = s.ioTrace ++ [.input s.c (s.portValue s.c)] := rfl

/-- R416, R417: the byte an iteration stores, and every other byte as before. -/
theorem State.readByte_inputOnce (step : Word) (s : State) (addr : Word) :
    (s.inputOnce step).readByte addr = if addr = s.hl then s.portValue s.c else s.readByte addr :=
  State.readByte_writeByte (s.recordIn s.c) s.hl addr (s.portValue s.c)

@[simp] theorem State.outputOnce_b (step : Word) (s : State) : (s.outputOnce step).b = s.b - 1 := rfl

@[simp] theorem State.outputOnce_c (step : Word) (s : State) : (s.outputOnce step).c = s.c := rfl

@[simp] theorem State.outputOnce_mem (step : Word) (s : State) : (s.outputOnce step).mem = s.mem := rfl

@[simp] theorem State.outputOnce_hl (step : Word) (s : State) : (s.outputOnce step).hl = s.hl + step :=
  joinBytes_hiByte_loByte (s.hl + step)

@[simp] theorem State.outputOnce_ioTrace (step : Word) (s : State) :
    (s.outputOnce step).ioTrace = s.ioTrace ++ [.output s.c (s.readByte s.hl)] := rfl

/-! ## Many iterations -/

/-- A counter that every iteration lowers by 1 is lowered by `k` after `k` iterations. -/
theorem counter_iterate {w : Nat} {counter : State → BitVec w} {body : State → State}
    (hbody : ∀ s, counter (body s) = counter s - 1#w) (k : Nat) (s : State) :
    counter (body^[k] s) = counter s - BitVec.ofNat w k := by
  induction k generalizing s with
  | zero => simp
  | succ k ih =>
    rw [Function.iterate_succ_apply, ih, hbody]
    apply BitVec.eq_of_toNat_eq
    simp only [BitVec.toNat_sub, BitVec.toNat_ofNat]
    have := (counter s).isLt
    rcases Nat.eq_zero_or_pos w with rfl | hw
    · simp only [Nat.pow_zero, Nat.mod_one]
    · have h2 : 1 < 2 ^ w := Nat.one_lt_two_pow (Nat.pos_iff_ne_zero.mp hw)
      rw [Nat.mod_eq_of_lt h2]
      have hk : (k + 1) % 2 ^ w = (k % 2 ^ w + 1) % 2 ^ w := by rw [Nat.mod_add_mod]
      rw [hk]
      have hlt : k % 2 ^ w < 2 ^ w := Nat.mod_lt _ (by omega)
      generalize k % 2 ^ w = j at *
      generalize 2 ^ w = m at *
      rcases Nat.lt_or_ge (j + 1) m with h | h
      · rw [Nat.mod_eq_of_lt h, Nat.add_mod_mod]
        rw [show m - j + (m - 1 + (counter s).toNat) = m - (j + 1) + (counter s).toNat + m by omega, Nat.add_mod_right]
      · have : j + 1 = m := by omega
        rw [this, Nat.mod_self, Nat.add_mod_mod]
        rw [show m - j + (m - 1 + (counter s).toNat) = m - 0 + (counter s).toNat by omega]

/-- A pointer that every iteration moves by `step` has moved by `k` steps after `k` iterations. -/
theorem pointer_iterate {pointer : State → Word} {body : State → State} {step : Word}
    (hbody : ∀ s, pointer (body s) = pointer s + step) (k : Nat) (s : State) :
    pointer (body^[k] s) = addrAfter (pointer s) step k := by
  induction k generalizing s with
  | zero => simp [addrAfter]
  | succ k ih =>
    rw [Function.iterate_succ_apply, ih, hbody]
    unfold addrAfter
    rw [show BitVec.ofNat 16 (k + 1) = 1#16 + BitVec.ofNat 16 k by rw [BitVec.add_comm]; exact BitVec.ofNat_add ..,
      BitVec.mul_add, BitVec.mul_one, BitVec.add_assoc]

/-- What every iteration keeps, many keep. -/
theorem iterate_keeps {α : Type} {view : State → α} {body : State → State} (hbody : ∀ s, view (body s) = view s) (k : Nat)
    (s : State) : view (body^[k] s) = view s := by
  induction k generalizing s with
  | zero => rfl
  | succ k ih => rw [Function.iterate_succ_apply, ih, hbody]

/-- R231: BC counted down from its start value is 0 after `countBC` iterations and not before. -/
theorem State.countBC_spec (s : State) :
    1 ≤ s.countBC ∧ s.countBC ≤ 65536 ∧ s.bc - BitVec.ofNat 16 s.countBC = 0 ∧
      ∀ k, 1 ≤ k → k < s.countBC → s.bc - BitVec.ofNat 16 k ≠ 0 := by
  have hlt := s.bc.isLt
  unfold State.countBC
  split
  · next h =>
    rw [h]
    exact ⟨by omega, by omega, by decide, fun k h1 h2 => by bv_omega⟩
  · next h =>
    have hpos : 1 ≤ s.bc.toNat := by bv_omega
    exact ⟨hpos, by omega, by bv_omega, fun k h1 h2 => by bv_omega⟩

/-- R231: B counted down from its start value is 0 after `countB` iterations and not before. -/
theorem State.countB_spec (s : State) :
    1 ≤ s.countB ∧ s.countB ≤ 256 ∧ s.b - BitVec.ofNat 8 s.countB = 0 ∧
      ∀ k, 1 ≤ k → k < s.countB → s.b - BitVec.ofNat 8 k ≠ 0 := by
  have hlt := s.b.isLt
  unfold State.countB
  split
  · next h =>
    rw [h]
    exact ⟨by omega, by omega, by decide, fun k h1 h2 => by bv_omega⟩
  · next h =>
    have hpos : 1 ≤ s.b.toNat := by bv_omega
    exact ⟨hpos, by omega, by bv_omega, fun k h1 h2 => by bv_omega⟩

/-! ## The repeating instructions -/

/-- R231, R234, R235: a loop counted by BC alone runs `countBC` iterations. -/
theorem repeat_countedOut {body : State → State} (hbody : ∀ s, (body s).bc = s.bc - 1) (s : State) :
    repeatUntil body State.countedOut repeatFuelBC s = body^[s.countBC] s ∧
      repeatCount body State.countedOut repeatFuelBC s = s.countBC := by
  obtain ⟨hpos, hle, hzero, hbefore⟩ := s.countBC_spec
  obtain ⟨k, hk⟩ : ∃ k, s.countBC = k + 1 := ⟨s.countBC - 1, by omega⟩
  have hfuel : k < repeatFuelBC := by unfold repeatFuelBC; omega
  have hgo : ∀ j, j < k → State.countedOut (body^[j + 1] s) = false := fun j hj => by
    unfold State.countedOut
    rw [counter_iterate hbody]
    exact decide_eq_false (hbefore (j + 1) (by omega) (by omega))
  have hstop : State.countedOut (body^[k + 1] s) = true := by
    unfold State.countedOut
    rw [counter_iterate hbody, ← hk]
    exact decide_eq_true hzero
  rw [hk]
  exact ⟨repeatUntil_eq_iterate k hfuel hgo hstop, repeatCount_eq k hfuel hgo hstop⟩

/-- R231, R418, R422: a loop counted by B alone runs `countB` iterations. -/
theorem repeat_portsDone {body : State → State} (hbody : ∀ s, (body s).b = s.b - 1) (s : State) :
    repeatUntil body State.portsDone repeatFuelB s = body^[s.countB] s ∧
      repeatCount body State.portsDone repeatFuelB s = s.countB := by
  obtain ⟨hpos, hle, hzero, hbefore⟩ := s.countB_spec
  obtain ⟨k, hk⟩ : ∃ k, s.countB = k + 1 := ⟨s.countB - 1, by omega⟩
  have hfuel : k < repeatFuelB := by unfold repeatFuelB; omega
  have hgo : ∀ j, j < k → State.portsDone (body^[j + 1] s) = false := fun j hj => by
    unfold State.portsDone
    rw [counter_iterate (counter := State.b) hbody]
    exact decide_eq_false (hbefore (j + 1) (by omega) (by omega))
  have hstop : State.portsDone (body^[k + 1] s) = true := by
    unfold State.portsDone
    rw [counter_iterate (counter := State.b) hbody, ← hk]
    exact decide_eq_true hzero
  rw [hk]
  exact ⟨repeatUntil_eq_iterate k hfuel hgo hstop, repeatCount_eq k hfuel hgo hstop⟩

/-- R231, R238, R239: a loop that also stops at a match runs `k + 1` iterations, the first of which to stop it being the
last, and at most `countBC`. -/
theorem repeat_compareDone {body : State → State} (hbody : ∀ s, (body s).bc = s.bc - 1) (s : State) :
    ∃ k, k < s.countBC ∧ repeatUntil body State.compareDone repeatFuelBC s = body^[k + 1] s ∧
      repeatCount body State.compareDone repeatFuelBC s = k + 1 ∧
      (∀ j, j < k → (body^[j + 1] s).f.z = false) ∧ (k + 1 = s.countBC ∨ (body^[k + 1] s).f.z = true) := by
  obtain ⟨hpos, hle, hzero, hbefore⟩ := s.countBC_spec
  have hex : ∃ k, State.compareDone (body^[k + 1] s) = true := by
    refine ⟨s.countBC - 1, ?_⟩
    unfold State.compareDone
    rw [counter_iterate hbody, Nat.sub_add_cancel hpos, hzero]
    rfl
  have hmin : ∀ j, j < Nat.find hex → State.compareDone (body^[j + 1] s) = false := fun j hj => by
    simpa using Nat.find_min hex hj
  have hlast : State.compareDone (body^[Nat.find hex + 1] s) = true := Nat.find_spec hex
  have hbound : Nat.find hex < s.countBC := by
    have : Nat.find hex ≤ s.countBC - 1 := by
      refine Nat.find_min' hex ?_
      unfold State.compareDone
      rw [counter_iterate hbody, Nat.sub_add_cancel hpos, hzero]
      rfl
    omega
  have hfuel : Nat.find hex < repeatFuelBC := Nat.lt_of_lt_of_le hbound hle
  refine ⟨Nat.find hex, hbound, repeatUntil_eq_iterate _ hfuel hmin hlast, repeatCount_eq _ hfuel hmin hlast, fun j hj => ?_, ?_⟩
  · have := hmin j hj
    unfold State.compareDone at this
    exact (Bool.or_eq_false_iff.mp this).2
  · unfold State.compareDone at hlast
    rcases Bool.or_eq_true_iff.mp hlast with h | h
    · refine .inl ?_
      by_contra hne
      rw [counter_iterate hbody] at h
      exact hbefore (Nat.find hex + 1) (by omega) (by omega) (of_decide_eq_true h)
    · exact .inr h

/-- R232 to R235: memory after `k` iterations of a transfer. -/
theorem State.readByte_transfer_iterate (step : Word) (k : Nat) (s : State) (addr : Word) :
    ((State.transferOnce step)^[k] s).readByte addr = copyAfter s step k addr := by
  induction k generalizing addr with
  | zero => rfl
  | succ k ih =>
    rw [Function.iterate_succ_apply', State.readByte_transferOnce,
      pointer_iterate (State.transferOnce_de step), pointer_iterate (State.transferOnce_hl step), ih, ih]
    rfl

end Sys2Proof.Machine
end

