-- ==== Sys2Proof/Laws/Frame.lean ====
section
/-!
SUPPORT. Laws.Frame: the frame words of Safety compose: what each of several changes leaves alone, all of them together
leave alone, and so do many iterations of one change.
-/
namespace Sys2Proof.Machine

theorem Field.same_refl (k : Field) (s : State) : k.same s s := by
  cases k <;> first | rfl | exact fun _ => rfl

theorem Field.same_trans {k : Field} {s t u : State} (hst : k.same s t) (htu : k.same t u) : k.same s u := by
  cases k <;> first | exact Eq.trans htu hst | exact fun addr => (htu addr).trans (hst addr)

theorem Unchanged.refl (touched : List Field) (s : State) : Unchanged touched s s := fun k _ => k.same_refl s

/-- Two changes one after the other touch what either touches. -/
theorem Unchanged.trans {touched : List Field} {s t u : State} (hst : Unchanged touched s t) (htu : Unchanged touched t u) :
    Unchanged touched s u :=
  fun k hk => Field.same_trans (hst k hk) (htu k hk)

/-- A frame may be stated with more parts. -/
theorem Unchanged.mono {touched more : List Field} (hsub : ∀ k ∈ touched, k ∈ more) {s t : State}
    (h : Unchanged touched s t) : Unchanged more s t :=
  fun k hk => h k fun hmem => hk (hsub k hmem)

/-- Many iterations touch what one touches. -/
theorem Unchanged.iterate {touched : List Field} {body : State → State} (hbody : ∀ s, Unchanged touched s (body s)) (k : Nat)
    (s : State) : Unchanged touched s (body^[k] s) := by
  induction k generalizing s with
  | zero => exact Unchanged.refl touched s
  | succ k ih =>
    rw [Function.iterate_succ_apply]
    exact (hbody s).trans (ih (body s))

theorem MemoryOutside.refl (stored : List Word) (s : State) : MemoryOutside stored s s := fun _ _ => rfl

theorem MemoryOutside.trans {stored : List Word} {s t u : State} (hst : MemoryOutside stored s t)
    (htu : MemoryOutside stored t u) : MemoryOutside stored s u :=
  fun addr ha => (htu addr ha).trans (hst addr ha)

/-- R73: a byte write leaves every byte but its own. -/
theorem State.writeByte_outside (s : State) (addr : Word) (v : Byte) : MemoryOutside [addr] s (s.writeByte addr v) :=
  fun _ ha => State.readByte_writeByte_other s v fun h => ha (h ▸ List.mem_singleton_self addr)

/-- R75: a word write leaves every byte but its two. -/
theorem State.writeWord_outside (s : State) (addr v : Word) : MemoryOutside [addr, addr + 1] s (s.writeWord addr v) := by
  intro other ha
  simp only [List.mem_cons, List.not_mem_nil, or_false, not_or] at ha
  rw [State.readByte_writeWord, if_neg ha.2, if_neg ha.1]

/-- R360: a push leaves every byte but its two. -/
theorem State.push16_outside (s : State) (v : Word) : MemoryOutside [s.sp - 1, s.sp - 2] s (s.push16 v) := by
  intro other ha
  simp only [List.mem_cons, List.not_mem_nil, or_false, not_or] at ha
  rw [State.readByte_push16, if_neg ha.2, if_neg fun h => ha.1 (h.trans (word_sub_two_succ s.sp))]

/-- R37: writing flags touches F and the draw counter. -/
theorem State.writeFlags_unchanged (s : State) (extra : Nat) (g : Flags) :
    Unchanged (.draws :: allFlags) s (s.writeFlags extra g) := by
  intro k hk
  cases k <;> first
    | rfl
    | exact fun _ => rfl
    | exact absurd (by decide) hk

end Sys2Proof.Machine
end

