-- ==== Sys2Proof/Laws/Flags.lean ====
section
/-!
SUPPORT. Laws.Flags: the ALU helpers of 40_alu_helpers.md (R141 to R151) in whole numbers, one lemma for each, so that
callers cite it instead of unfolding the helper.
-/
namespace Sys2Proof.Machine

/-! ## Signs, zeros, parity -/

theorem bit7_eq (v : Byte) : bit7 v = decide (128 ≤ v.toNat) := by
  revert v
  decide

theorem bit15_eq (v : Word) : bit15 v = decide (32768 ≤ v.toNat) := by
  have := v.isLt
  simp only [bit15, BitVec.getLsbD, Nat.testBit_eq_decide_div_mod_eq, decide_eq_decide]
  omega

/-- R141: the parity bit says that the number of ones is even. -/
theorem parityEven_iff (v : Byte) : parityEven v = true ↔ onesIn v % 2 = 0 := by
  revert v
  decide

theorem byte_zero_iff (v : Byte) : decide (v = 0) = true ↔ v.toNat = 0 := by simp [BitVec.toNat_eq]

theorem word_zero_iff (v : Word) : decide (v = 0) = true ↔ v.toNat = 0 := by simp [BitVec.toNat_eq]

theorem bit7_iff (v : Byte) : bit7 v = true ↔ 128 ≤ v.toNat := by rw [bit7_eq, decide_eq_true_iff]

theorem bit15_iff (v : Word) : bit15 v = true ↔ 32768 ≤ v.toNat := by rw [bit15_eq, decide_eq_true_iff]

/-- R8: a byte as a signed number. -/
theorem byte_toInt (v : Byte) : v.toInt = if 128 ≤ v.toNat then (v.toNat : Int) - 256 else v.toNat := by
  have := v.isLt
  rw [BitVec.toInt_eq_toNat_cond]
  split <;> split <;> omega

/-- R8: a word as a signed number. -/
theorem word_toInt (v : Word) : v.toInt = if 32768 ≤ v.toNat then (v.toNat : Int) - 65536 else v.toNat := by
  have := v.isLt
  rw [BitVec.toInt_eq_toNat_cond]
  split <;> split <;> omega

/-- S, Z and PV written from a byte are that byte's. -/
theorem ByteFlags.of_eq {v : Byte} {g : Flags} (hs : g.s = bit7 v) (hz : g.z = decide (v = 0)) (hpv : g.pv = parityEven v) :
    ByteFlags v g := by
  refine ⟨?_, ?_, ?_⟩
  · rw [hs, bit7_iff]
  · rw [hz, byte_zero_iff]
  · rw [hpv, parityEven_iff]

/-- R144: the overflow under `Z80`, the parity under `I80`. -/
theorem pvArith_means {g : Gen} {ovf : Bool} {overflow : Prop} (res : Byte) (h : ovf = true ↔ overflow) :
    PvMeans g overflow res (pvArith g ovf res) := by
  cases g
  · exact ⟨nofun, fun _ => parityEven_iff res⟩
  · exact ⟨fun _ => h, nofun⟩

/-- The six flags of an ALU result, whatever X5 and X3 become (R37). -/
def Alu8.inFlags (o : Alu8) (x5 x3 : Bool) : Flags :=
  { s := o.s, z := o.z, x5 := x5, h := o.h, x3 := x3, pv := o.pv, n := o.n, c := o.c }

theorem carry_le (c : Bool) : c.toNat ≤ 1 := by cases c <;> decide

/-! ## 8-bit arithmetic -/

/-- R142. -/
theorem add8_exact (g : Gen) (a v : Byte) (cin x5 x3 : Bool) :
    AddsExactly g a v cin (add8 g a v cin).res ((add8 g a v cin).inFlags x5 x3) := by
  have ha := a.isLt
  have hv := v.isLt
  have hc := carry_le cin
  have hr : (add8 g a v cin).res.toNat = (a.toNat + v.toNat + cin.toNat) % 256 := BitVec.toNat_ofNat _ 8
  refine ⟨hr, bit7_iff _, byte_zero_iff _, ?_, ?_, rfl, ?_⟩
  · show decide _ = true ↔ _
    rw [decide_eq_true_iff]
    omega
  · refine pvArith_means _ ?_
    change decide (bit7 a = bit7 v ∧ bit7 (add8 g a v cin).res ≠ bit7 a) = true ↔ _
    simp only [decide_eq_true_eq, bit7_eq, byte_toInt, hr, decide_eq_decide, ne_eq]
    split <;> split <;> split <;> omega
  · show decide _ = true ↔ _
    rw [decide_eq_true_iff]
    omega

/-- R143. -/
theorem sub8_exact (g : Gen) (a v : Byte) (cin x5 x3 : Bool) :
    SubtractsExactly g a v cin (sub8 g a v cin).res ((sub8 g a v cin).inFlags x5 x3) := by
  have ha := a.isLt
  have hv := v.isLt
  have hc := carry_le cin
  have hr : ((sub8 g a v cin).res.toNat : Int) = ((a.toNat : Int) - v.toNat - cin.toNat) % 256 := by
    simp only [sub8, BitVec.toNat_ofInt]
    omega
  refine ⟨hr, bit7_iff _, byte_zero_iff _, ?_, ?_, rfl, ?_⟩
  · show decide _ = true ↔ _
    rw [decide_eq_true_iff]
  · refine pvArith_means _ ?_
    change decide (bit7 a ≠ bit7 v ∧ bit7 (sub8 g a v cin).res ≠ bit7 a) = true ↔ _
    simp only [decide_eq_true_eq, bit7_eq, byte_toInt, decide_eq_decide, ne_eq]
    split <;> split <;> split <;> omega
  · show decide _ = true ↔ _
    rw [decide_eq_true_iff]
    omega

/-- R143: without a borrow in, the result is the difference of the two bytes. -/
theorem sub8_res (g : Gen) (a v : Byte) : (sub8 g a v false).res = a - v := by
  have := a.isLt
  have := v.isLt
  apply BitVec.eq_of_toNat_eq
  simp only [sub8, BitVec.toNat_sub, BitVec.toNat_ofInt, Bool.toNat_false]
  omega

/-- R279: a comparison says Z exactly of equal bytes. -/
theorem sub8_z (g : Gen) (a v : Byte) : (sub8 g a v false).z = true ↔ a = v := by
  show decide ((sub8 g a v false).res = 0) = true ↔ _
  rw [sub8_res, decide_eq_true_iff]
  bv_omega

/-- R145: the result and the flags of an increment. -/
theorem inc8_exact (g : Gen) (v : Byte) :
    (inc8 g v).res.toNat = (v.toNat + 1) % 256 ∧ ((inc8 g v).s = true ↔ 128 ≤ (inc8 g v).res.toNat) ∧
      ((inc8 g v).z = true ↔ (inc8 g v).res.toNat = 0) ∧ ((inc8 g v).h = true ↔ v.toNat % 16 = 15) ∧
      PvMeans g (v.toNat = 127) (inc8 g v).res (inc8 g v).pv ∧ (inc8 g v).n = false := by
  refine ⟨BitVec.toNat_ofNat _ 8, bit7_iff _, byte_zero_iff _, decide_eq_true_iff, pvArith_means _ ?_, rfl⟩
  revert v
  decide

/-- R146: the result and the flags of a decrement. -/
theorem dec8_exact (g : Gen) (v : Byte) :
    (dec8 g v).res.toNat = (v.toNat + 255) % 256 ∧ ((dec8 g v).s = true ↔ 128 ≤ (dec8 g v).res.toNat) ∧
      ((dec8 g v).z = true ↔ (dec8 g v).res.toNat = 0) ∧ ((dec8 g v).h = true ↔ v.toNat % 16 = 0) ∧
      PvMeans g (v.toNat = 128) (dec8 g v).res (dec8 g v).pv ∧ (dec8 g v).n = true := by
  have hv := v.isLt
  refine ⟨?_, bit7_iff _, byte_zero_iff _, decide_eq_true_iff, pvArith_means _ ?_, rfl⟩
  · simp only [dec8, BitVec.toNat_ofInt]
    omega
  · clear hv
    revert v
    decide

/-! ## 16-bit arithmetic -/

/-- R148. -/
theorem add16_exact (a b : Word) :
    (add16 a b).res.toNat = (a.toNat + b.toNat) % 65536 ∧
      ((add16 a b).h = true ↔ 4096 ≤ a.toNat % 4096 + b.toNat % 4096) ∧ (add16 a b).n = false ∧
      ((add16 a b).c = true ↔ 65536 ≤ a.toNat + b.toNat) := by
  refine ⟨BitVec.toNat_ofNat _ 16, ?_, rfl, ?_⟩ <;>
  · show decide _ = true ↔ _
    rw [decide_eq_true_iff]
    omega

/-- R149. -/
theorem adc16_exact (a b : Word) (cin : Bool) :
    (adc16 a b cin).res.toNat = (a.toNat + b.toNat + cin.toNat) % 65536 ∧
      ((adc16 a b cin).s = true ↔ 32768 ≤ (adc16 a b cin).res.toNat) ∧
      ((adc16 a b cin).z = true ↔ (adc16 a b cin).res.toNat = 0) ∧
      ((adc16 a b cin).h = true ↔ 4096 ≤ a.toNat % 4096 + b.toNat % 4096 + cin.toNat) ∧
      ((adc16 a b cin).pv = true ↔ (adc16 a b cin).res.toInt ≠ a.toInt + b.toInt + cin.toNat) ∧
      (adc16 a b cin).n = false ∧ ((adc16 a b cin).c = true ↔ 65536 ≤ a.toNat + b.toNat + cin.toNat) := by
  have ha := a.isLt
  have hb := b.isLt
  have hc := carry_le cin
  have hr : (adc16 a b cin).res.toNat = (a.toNat + b.toNat + cin.toNat) % 65536 := BitVec.toNat_ofNat _ 16
  refine ⟨hr, bit15_iff _, word_zero_iff _, ?_, ?_, rfl, ?_⟩
  · show decide _ = true ↔ _
    rw [decide_eq_true_iff]
    omega
  · change decide (bit15 a = bit15 b ∧ bit15 (adc16 a b cin).res ≠ bit15 a) = true ↔ _
    simp only [decide_eq_true_eq, bit15_eq, word_toInt, hr, decide_eq_decide, ne_eq]
    split <;> split <;> split <;> omega
  · show decide _ = true ↔ _
    rw [decide_eq_true_iff]
    omega

/-- R150. -/
theorem sbc16_exact (a b : Word) (cin : Bool) :
    ((sbc16 a b cin).res.toNat : Int) = ((a.toNat : Int) - b.toNat - cin.toNat) % 65536 ∧
      ((sbc16 a b cin).s = true ↔ 32768 ≤ (sbc16 a b cin).res.toNat) ∧
      ((sbc16 a b cin).z = true ↔ (sbc16 a b cin).res.toNat = 0) ∧
      ((sbc16 a b cin).h = true ↔ a.toNat % 4096 < b.toNat % 4096 + cin.toNat) ∧
      ((sbc16 a b cin).pv = true ↔ (sbc16 a b cin).res.toInt ≠ a.toInt - b.toInt - cin.toNat) ∧
      (sbc16 a b cin).n = true ∧ ((sbc16 a b cin).c = true ↔ a.toNat < b.toNat + cin.toNat) := by
  have ha := a.isLt
  have hb := b.isLt
  have hc := carry_le cin
  have hr : ((sbc16 a b cin).res.toNat : Int) = ((a.toNat : Int) - b.toNat - cin.toNat) % 65536 := by
    simp only [sbc16, BitVec.toNat_ofInt]
    omega
  refine ⟨hr, bit15_iff _, word_zero_iff _, decide_eq_true_iff, ?_, rfl, ?_⟩
  · change decide (bit15 a ≠ bit15 b ∧ bit15 (sbc16 a b cin).res ≠ bit15 a) = true ↔ _
    simp only [decide_eq_true_eq, bit15_eq, word_toInt, decide_eq_decide, ne_eq]
    split <;> split <;> split <;> omega
  · show decide _ = true ↔ _
    rw [decide_eq_true_iff]
    omega

/-! ## Rotates, bits -/

/-- R151: the bits of a byte moved up by one. -/
theorem shiftLeftIn_bits (v : Byte) (low : Bool) :
    (shiftLeftIn v low).getLsbD 0 = low ∧ ∀ k < 7, (shiftLeftIn v low).getLsbD (k + 1) = v.getLsbD k := by
  have hl := carry_le low
  constructor
  · cases low <;> simp [shiftLeftIn, BitVec.getLsbD, Nat.testBit_eq_decide_div_mod_eq]
  · intro k hk
    simp only [shiftLeftIn, BitVec.getLsbD, BitVec.toNat_ofNat, Nat.testBit_eq_decide_div_mod_eq, decide_eq_decide]
    interval_cases k <;> omega

/-- R151: the bits of a byte moved down by one. -/
theorem shiftRightIn_bits (high : Bool) (v : Byte) :
    (shiftRightIn high v).getLsbD 7 = high ∧ ∀ k < 7, (shiftRightIn high v).getLsbD k = v.getLsbD (k + 1) := by
  have hv := v.isLt
  have hh := carry_le high
  constructor
  · cases high <;> simp [shiftRightIn, BitVec.getLsbD, Nat.testBit_eq_decide_div_mod_eq] <;> omega
  · intro k hk
    simp only [shiftRightIn, BitVec.getLsbD, BitVec.toNat_ofNat, Nat.testBit_eq_decide_div_mod_eq, decide_eq_decide]
    interval_cases k <;> omega

/-- R151. -/
theorem rot8_exact (kind : RotKind) (v : Byte) (cin : Bool) :
    RotatesTo kind v cin (rot8 kind v cin).res (rot8 kind v cin).cout := by
  cases kind with
  | rlc => exact ⟨rfl, (shiftLeftIn_bits v _).1, (shiftLeftIn_bits v _).2⟩
  | rrc => exact ⟨rfl, (shiftRightIn_bits _ v).1, (shiftRightIn_bits _ v).2⟩
  | rl => exact ⟨rfl, (shiftLeftIn_bits v _).1, (shiftLeftIn_bits v _).2⟩
  | rr => exact ⟨rfl, (shiftRightIn_bits _ v).1, (shiftRightIn_bits _ v).2⟩
  | sla => exact ⟨rfl, (shiftLeftIn_bits v _).1, (shiftLeftIn_bits v _).2⟩
  | sra => exact ⟨rfl, (shiftRightIn_bits _ v).1, (shiftRightIn_bits _ v).2⟩
  | srl => exact ⟨rfl, (shiftRightIn_bits _ v).1, (shiftRightIn_bits _ v).2⟩

/-- R333: every bit of the result of SET. -/
theorem setBit_getLsbD (b : Fin 8) (v : Byte) : ∀ k < 8, (setBit b v).getLsbD k = if k = b.val then true else v.getLsbD k := by
  intro k hk
  have hone : ∀ (b : Fin 8) (k : Fin 8), (1#8 <<< b.val).getLsbD k.val = decide (k.val = b.val) := by decide
  have h := hone b ⟨k, hk⟩
  simp only at h
  rw [setBit, BitVec.getLsbD_or, h]
  by_cases hkb : k = b.val <;> simp [hkb]

/-- R336: every bit of the result of RES. -/
theorem resetBit_getLsbD (b : Fin 8) (v : Byte) :
    ∀ k < 8, (resetBit b v).getLsbD k = if k = b.val then false else v.getLsbD k := by
  intro k hk
  have hone : ∀ (b : Fin 8) (k : Fin 8), (0xFF#8 ^^^ (1#8 <<< b.val)).getLsbD k.val = decide (k.val ≠ b.val) := by decide
  have h := hone b ⟨k, hk⟩
  simp only at h
  rw [resetBit, BitVec.getLsbD_and, h]
  by_cases hkb : k = b.val <;> simp [hkb]

/-- R305: two nibbles joined. -/
theorem joinNibbles_toNat {high low : Nat} (hh : high < 16) (hl : low < 16) :
    (joinNibbles high low).toNat = high * 16 + low := by
  simp only [joinNibbles, BitVec.toNat_ofNat]
  omega

end Sys2Proof.Machine
end

