-- ==== Sys2Proof/Laws/PerInstr.lean ====
section
/-!
SUPPORT. Laws.PerInstr: statements made of each instruction by itself, one lemma for each constructor. `EncodedLength`
says that an instruction has one to four bytes, as many as its format has (30_encoding.md R100, R103).
-/
namespace Sys2Proof.Laws.EncodedLength

/-- R100: an encoding has one to four bytes. -/
def Statement (i : Instr) : Prop := 1 ≤ (encode i).length ∧ (encode i).length ≤ 4

theorem ldRR (rd : Reg) (rs : Reg) : Statement (.ldRR rd rs) :=
  ⟨(by decide : 1 ≤ 1), (by decide : 1 ≤ 4)⟩

theorem ldRN (rd : Reg) (n : Byte) : Statement (.ldRN rd n) :=
  ⟨(by decide : 1 ≤ 2), (by decide : 2 ≤ 4)⟩

theorem ldRAtHL (rd : Reg) : Statement (.ldRAtHL rd) :=
  ⟨(by decide : 1 ≤ 1), (by decide : 1 ≤ 4)⟩

theorem ldAtHLR (rs : Reg) : Statement (.ldAtHLR rs) :=
  ⟨(by decide : 1 ≤ 1), (by decide : 1 ≤ 4)⟩

theorem ldAtHLN (n : Byte) : Statement (.ldAtHLN n) :=
  ⟨(by decide : 1 ≤ 2), (by decide : 2 ≤ 4)⟩

theorem ldAAtBC : Statement .ldAAtBC :=
  ⟨(by decide : 1 ≤ 1), (by decide : 1 ≤ 4)⟩

theorem ldAAtDE : Statement .ldAAtDE :=
  ⟨(by decide : 1 ≤ 1), (by decide : 1 ≤ 4)⟩

theorem ldAtBCA : Statement .ldAtBCA :=
  ⟨(by decide : 1 ≤ 1), (by decide : 1 ≤ 4)⟩

theorem ldAtDEA : Statement .ldAtDEA :=
  ⟨(by decide : 1 ≤ 1), (by decide : 1 ≤ 4)⟩

theorem ldAAtNN (nn : Word) : Statement (.ldAAtNN nn) :=
  ⟨(by decide : 1 ≤ 3), (by decide : 3 ≤ 4)⟩

theorem ldAtNNA (nn : Word) : Statement (.ldAtNNA nn) :=
  ⟨(by decide : 1 ≤ 3), (by decide : 3 ≤ 4)⟩

theorem ldSSNN (ss : RegSS) (nn : Word) : Statement (.ldSSNN ss nn) :=
  ⟨(by decide : 1 ≤ 3), (by decide : 3 ≤ 4)⟩

theorem ldHLAtNN (nn : Word) : Statement (.ldHLAtNN nn) :=
  ⟨(by decide : 1 ≤ 3), (by decide : 3 ≤ 4)⟩

theorem ldAtNNHL (nn : Word) : Statement (.ldAtNNHL nn) :=
  ⟨(by decide : 1 ≤ 3), (by decide : 3 ≤ 4)⟩

theorem ldSPHL : Statement .ldSPHL :=
  ⟨(by decide : 1 ≤ 1), (by decide : 1 ≤ 4)⟩

theorem pushQQ (qq : RegQQ) : Statement (.pushQQ qq) :=
  ⟨(by decide : 1 ≤ 1), (by decide : 1 ≤ 4)⟩

theorem popQQ (qq : RegQQ) : Statement (.popQQ qq) :=
  ⟨(by decide : 1 ≤ 1), (by decide : 1 ≤ 4)⟩

theorem addAR (rs : Reg) : Statement (.addAR rs) :=
  ⟨(by decide : 1 ≤ 1), (by decide : 1 ≤ 4)⟩

theorem addAN (n : Byte) : Statement (.addAN n) :=
  ⟨(by decide : 1 ≤ 2), (by decide : 2 ≤ 4)⟩

theorem addAAtHL : Statement .addAAtHL :=
  ⟨(by decide : 1 ≤ 1), (by decide : 1 ≤ 4)⟩

theorem adcAR (rs : Reg) : Statement (.adcAR rs) :=
  ⟨(by decide : 1 ≤ 1), (by decide : 1 ≤ 4)⟩

theorem adcAN (n : Byte) : Statement (.adcAN n) :=
  ⟨(by decide : 1 ≤ 2), (by decide : 2 ≤ 4)⟩

theorem adcAAtHL : Statement .adcAAtHL :=
  ⟨(by decide : 1 ≤ 1), (by decide : 1 ≤ 4)⟩

theorem subR (rs : Reg) : Statement (.subR rs) :=
  ⟨(by decide : 1 ≤ 1), (by decide : 1 ≤ 4)⟩

theorem subN (n : Byte) : Statement (.subN n) :=
  ⟨(by decide : 1 ≤ 2), (by decide : 2 ≤ 4)⟩

theorem subAtHL : Statement .subAtHL :=
  ⟨(by decide : 1 ≤ 1), (by decide : 1 ≤ 4)⟩

theorem sbcAR (rs : Reg) : Statement (.sbcAR rs) :=
  ⟨(by decide : 1 ≤ 1), (by decide : 1 ≤ 4)⟩

theorem sbcAN (n : Byte) : Statement (.sbcAN n) :=
  ⟨(by decide : 1 ≤ 2), (by decide : 2 ≤ 4)⟩

theorem sbcAAtHL : Statement .sbcAAtHL :=
  ⟨(by decide : 1 ≤ 1), (by decide : 1 ≤ 4)⟩

theorem andR (rs : Reg) : Statement (.andR rs) :=
  ⟨(by decide : 1 ≤ 1), (by decide : 1 ≤ 4)⟩

theorem andN (n : Byte) : Statement (.andN n) :=
  ⟨(by decide : 1 ≤ 2), (by decide : 2 ≤ 4)⟩

theorem andAtHL : Statement .andAtHL :=
  ⟨(by decide : 1 ≤ 1), (by decide : 1 ≤ 4)⟩

theorem xorR (rs : Reg) : Statement (.xorR rs) :=
  ⟨(by decide : 1 ≤ 1), (by decide : 1 ≤ 4)⟩

theorem xorN (n : Byte) : Statement (.xorN n) :=
  ⟨(by decide : 1 ≤ 2), (by decide : 2 ≤ 4)⟩

theorem xorAtHL : Statement .xorAtHL :=
  ⟨(by decide : 1 ≤ 1), (by decide : 1 ≤ 4)⟩

theorem orR (rs : Reg) : Statement (.orR rs) :=
  ⟨(by decide : 1 ≤ 1), (by decide : 1 ≤ 4)⟩

theorem orN (n : Byte) : Statement (.orN n) :=
  ⟨(by decide : 1 ≤ 2), (by decide : 2 ≤ 4)⟩

theorem orAtHL : Statement .orAtHL :=
  ⟨(by decide : 1 ≤ 1), (by decide : 1 ≤ 4)⟩

theorem cpR (rs : Reg) : Statement (.cpR rs) :=
  ⟨(by decide : 1 ≤ 1), (by decide : 1 ≤ 4)⟩

theorem cpN (n : Byte) : Statement (.cpN n) :=
  ⟨(by decide : 1 ≤ 2), (by decide : 2 ≤ 4)⟩

theorem cpAtHL : Statement .cpAtHL :=
  ⟨(by decide : 1 ≤ 1), (by decide : 1 ≤ 4)⟩

theorem incR (rd : Reg) : Statement (.incR rd) :=
  ⟨(by decide : 1 ≤ 1), (by decide : 1 ≤ 4)⟩

theorem incAtHL : Statement .incAtHL :=
  ⟨(by decide : 1 ≤ 1), (by decide : 1 ≤ 4)⟩

theorem decR (rd : Reg) : Statement (.decR rd) :=
  ⟨(by decide : 1 ≤ 1), (by decide : 1 ≤ 4)⟩

theorem decAtHL : Statement .decAtHL :=
  ⟨(by decide : 1 ≤ 1), (by decide : 1 ≤ 4)⟩

theorem addHLSS (ss : RegSS) : Statement (.addHLSS ss) :=
  ⟨(by decide : 1 ≤ 1), (by decide : 1 ≤ 4)⟩

theorem incSS (ss : RegSS) : Statement (.incSS ss) :=
  ⟨(by decide : 1 ≤ 1), (by decide : 1 ≤ 4)⟩

theorem decSS (ss : RegSS) : Statement (.decSS ss) :=
  ⟨(by decide : 1 ≤ 1), (by decide : 1 ≤ 4)⟩

theorem rlca : Statement .rlca :=
  ⟨(by decide : 1 ≤ 1), (by decide : 1 ≤ 4)⟩

theorem rrca : Statement .rrca :=
  ⟨(by decide : 1 ≤ 1), (by decide : 1 ≤ 4)⟩

theorem rla : Statement .rla :=
  ⟨(by decide : 1 ≤ 1), (by decide : 1 ≤ 4)⟩

theorem rra : Statement .rra :=
  ⟨(by decide : 1 ≤ 1), (by decide : 1 ≤ 4)⟩

theorem daa : Statement .daa :=
  ⟨(by decide : 1 ≤ 1), (by decide : 1 ≤ 4)⟩

theorem cpl : Statement .cpl :=
  ⟨(by decide : 1 ≤ 1), (by decide : 1 ≤ 4)⟩

theorem scf : Statement .scf :=
  ⟨(by decide : 1 ≤ 1), (by decide : 1 ≤ 4)⟩

theorem ccf : Statement .ccf :=
  ⟨(by decide : 1 ≤ 1), (by decide : 1 ≤ 4)⟩

theorem halt : Statement .halt :=
  ⟨(by decide : 1 ≤ 1), (by decide : 1 ≤ 4)⟩

theorem nop : Statement .nop :=
  ⟨(by decide : 1 ≤ 1), (by decide : 1 ≤ 4)⟩

theorem exAFAF : Statement .exAFAF :=
  ⟨(by decide : 1 ≤ 1), (by decide : 1 ≤ 4)⟩

theorem djnz (e : Byte) : Statement (.djnz e) :=
  ⟨(by decide : 1 ≤ 2), (by decide : 2 ≤ 4)⟩

theorem jr (e : Byte) : Statement (.jr e) :=
  ⟨(by decide : 1 ≤ 2), (by decide : 2 ≤ 4)⟩

theorem jrCC (cc : CondJR) (e : Byte) : Statement (.jrCC cc e) :=
  ⟨(by decide : 1 ≤ 2), (by decide : 2 ≤ 4)⟩

theorem jp (nn : Word) : Statement (.jp nn) :=
  ⟨(by decide : 1 ≤ 3), (by decide : 3 ≤ 4)⟩

theorem jpCC (cc : Cond) (nn : Word) : Statement (.jpCC cc nn) :=
  ⟨(by decide : 1 ≤ 3), (by decide : 3 ≤ 4)⟩

theorem jpHL : Statement .jpHL :=
  ⟨(by decide : 1 ≤ 1), (by decide : 1 ≤ 4)⟩

theorem call (nn : Word) : Statement (.call nn) :=
  ⟨(by decide : 1 ≤ 3), (by decide : 3 ≤ 4)⟩

theorem callCC (cc : Cond) (nn : Word) : Statement (.callCC cc nn) :=
  ⟨(by decide : 1 ≤ 3), (by decide : 3 ≤ 4)⟩

theorem ret : Statement .ret :=
  ⟨(by decide : 1 ≤ 1), (by decide : 1 ≤ 4)⟩

theorem retCC (cc : Cond) : Statement (.retCC cc) :=
  ⟨(by decide : 1 ≤ 1), (by decide : 1 ≤ 4)⟩

theorem rst (t : Fin 8) : Statement (.rst t) :=
  ⟨(by decide : 1 ≤ 1), (by decide : 1 ≤ 4)⟩

theorem outAtNA (n : Byte) : Statement (.outAtNA n) :=
  ⟨(by decide : 1 ≤ 2), (by decide : 2 ≤ 4)⟩

theorem inAAtN (n : Byte) : Statement (.inAAtN n) :=
  ⟨(by decide : 1 ≤ 2), (by decide : 2 ≤ 4)⟩

theorem exx : Statement .exx :=
  ⟨(by decide : 1 ≤ 1), (by decide : 1 ≤ 4)⟩

theorem exAtSPHL : Statement .exAtSPHL :=
  ⟨(by decide : 1 ≤ 1), (by decide : 1 ≤ 4)⟩

theorem exDEHL : Statement .exDEHL :=
  ⟨(by decide : 1 ≤ 1), (by decide : 1 ≤ 4)⟩

theorem di : Statement .di :=
  ⟨(by decide : 1 ≤ 1), (by decide : 1 ≤ 4)⟩

theorem ei : Statement .ei :=
  ⟨(by decide : 1 ≤ 1), (by decide : 1 ≤ 4)⟩

theorem rlcR (rs : Reg) : Statement (.rlcR rs) :=
  ⟨(by decide : 1 ≤ 2), (by decide : 2 ≤ 4)⟩

theorem rlcAtHL : Statement .rlcAtHL :=
  ⟨(by decide : 1 ≤ 2), (by decide : 2 ≤ 4)⟩

theorem rrcR (rs : Reg) : Statement (.rrcR rs) :=
  ⟨(by decide : 1 ≤ 2), (by decide : 2 ≤ 4)⟩

theorem rrcAtHL : Statement .rrcAtHL :=
  ⟨(by decide : 1 ≤ 2), (by decide : 2 ≤ 4)⟩

theorem rlR (rs : Reg) : Statement (.rlR rs) :=
  ⟨(by decide : 1 ≤ 2), (by decide : 2 ≤ 4)⟩

theorem rlAtHL : Statement .rlAtHL :=
  ⟨(by decide : 1 ≤ 2), (by decide : 2 ≤ 4)⟩

theorem rrR (rs : Reg) : Statement (.rrR rs) :=
  ⟨(by decide : 1 ≤ 2), (by decide : 2 ≤ 4)⟩

theorem rrAtHL : Statement .rrAtHL :=
  ⟨(by decide : 1 ≤ 2), (by decide : 2 ≤ 4)⟩

theorem slaR (rs : Reg) : Statement (.slaR rs) :=
  ⟨(by decide : 1 ≤ 2), (by decide : 2 ≤ 4)⟩

theorem slaAtHL : Statement .slaAtHL :=
  ⟨(by decide : 1 ≤ 2), (by decide : 2 ≤ 4)⟩

theorem sraR (rs : Reg) : Statement (.sraR rs) :=
  ⟨(by decide : 1 ≤ 2), (by decide : 2 ≤ 4)⟩

theorem sraAtHL : Statement .sraAtHL :=
  ⟨(by decide : 1 ≤ 2), (by decide : 2 ≤ 4)⟩

theorem srlR (rs : Reg) : Statement (.srlR rs) :=
  ⟨(by decide : 1 ≤ 2), (by decide : 2 ≤ 4)⟩

theorem srlAtHL : Statement .srlAtHL :=
  ⟨(by decide : 1 ≤ 2), (by decide : 2 ≤ 4)⟩

theorem bitR (b : Fin 8) (rs : Reg) : Statement (.bitR b rs) :=
  ⟨(by decide : 1 ≤ 2), (by decide : 2 ≤ 4)⟩

theorem bitAtHL (b : Fin 8) : Statement (.bitAtHL b) :=
  ⟨(by decide : 1 ≤ 2), (by decide : 2 ≤ 4)⟩

theorem resR (b : Fin 8) (rs : Reg) : Statement (.resR b rs) :=
  ⟨(by decide : 1 ≤ 2), (by decide : 2 ≤ 4)⟩

theorem resAtHL (b : Fin 8) : Statement (.resAtHL b) :=
  ⟨(by decide : 1 ≤ 2), (by decide : 2 ≤ 4)⟩

theorem setR (b : Fin 8) (rs : Reg) : Statement (.setR b rs) :=
  ⟨(by decide : 1 ≤ 2), (by decide : 2 ≤ 4)⟩

theorem setAtHL (b : Fin 8) : Statement (.setAtHL b) :=
  ⟨(by decide : 1 ≤ 2), (by decide : 2 ≤ 4)⟩

theorem inRAtC (rd : Reg) : Statement (.inRAtC rd) :=
  ⟨(by decide : 1 ≤ 2), (by decide : 2 ≤ 4)⟩

theorem outAtCR (rs : Reg) : Statement (.outAtCR rs) :=
  ⟨(by decide : 1 ≤ 2), (by decide : 2 ≤ 4)⟩

theorem sbcHLSS (ss : RegSS) : Statement (.sbcHLSS ss) :=
  ⟨(by decide : 1 ≤ 2), (by decide : 2 ≤ 4)⟩

theorem adcHLSS (ss : RegSS) : Statement (.adcHLSS ss) :=
  ⟨(by decide : 1 ≤ 2), (by decide : 2 ≤ 4)⟩

theorem ldAtNNSS (nn : Word) (ss : RegSS) : Statement (.ldAtNNSS nn ss) :=
  ⟨(by decide : 1 ≤ 4), (by decide : 4 ≤ 4)⟩

theorem ldSSAtNN (ss : RegSS) (nn : Word) : Statement (.ldSSAtNN ss nn) :=
  ⟨(by decide : 1 ≤ 4), (by decide : 4 ≤ 4)⟩

theorem neg : Statement .neg :=
  ⟨(by decide : 1 ≤ 2), (by decide : 2 ≤ 4)⟩

theorem retn : Statement .retn :=
  ⟨(by decide : 1 ≤ 2), (by decide : 2 ≤ 4)⟩

theorem reti : Statement .reti :=
  ⟨(by decide : 1 ≤ 2), (by decide : 2 ≤ 4)⟩

theorem im0 : Statement .im0 :=
  ⟨(by decide : 1 ≤ 2), (by decide : 2 ≤ 4)⟩

theorem im1 : Statement .im1 :=
  ⟨(by decide : 1 ≤ 2), (by decide : 2 ≤ 4)⟩

theorem im2 : Statement .im2 :=
  ⟨(by decide : 1 ≤ 2), (by decide : 2 ≤ 4)⟩

theorem ldIA : Statement .ldIA :=
  ⟨(by decide : 1 ≤ 2), (by decide : 2 ≤ 4)⟩

theorem ldRA : Statement .ldRA :=
  ⟨(by decide : 1 ≤ 2), (by decide : 2 ≤ 4)⟩

theorem ldAI : Statement .ldAI :=
  ⟨(by decide : 1 ≤ 2), (by decide : 2 ≤ 4)⟩

theorem ldAR : Statement .ldAR :=
  ⟨(by decide : 1 ≤ 2), (by decide : 2 ≤ 4)⟩

theorem rrd : Statement .rrd :=
  ⟨(by decide : 1 ≤ 2), (by decide : 2 ≤ 4)⟩

theorem rld : Statement .rld :=
  ⟨(by decide : 1 ≤ 2), (by decide : 2 ≤ 4)⟩

theorem ldi : Statement .ldi :=
  ⟨(by decide : 1 ≤ 2), (by decide : 2 ≤ 4)⟩

theorem ldd : Statement .ldd :=
  ⟨(by decide : 1 ≤ 2), (by decide : 2 ≤ 4)⟩

theorem ldir : Statement .ldir :=
  ⟨(by decide : 1 ≤ 2), (by decide : 2 ≤ 4)⟩

theorem lddr : Statement .lddr :=
  ⟨(by decide : 1 ≤ 2), (by decide : 2 ≤ 4)⟩

theorem cpi : Statement .cpi :=
  ⟨(by decide : 1 ≤ 2), (by decide : 2 ≤ 4)⟩

theorem cpd : Statement .cpd :=
  ⟨(by decide : 1 ≤ 2), (by decide : 2 ≤ 4)⟩

theorem cpir : Statement .cpir :=
  ⟨(by decide : 1 ≤ 2), (by decide : 2 ≤ 4)⟩

theorem cpdr : Statement .cpdr :=
  ⟨(by decide : 1 ≤ 2), (by decide : 2 ≤ 4)⟩

theorem ini : Statement .ini :=
  ⟨(by decide : 1 ≤ 2), (by decide : 2 ≤ 4)⟩

theorem ind : Statement .ind :=
  ⟨(by decide : 1 ≤ 2), (by decide : 2 ≤ 4)⟩

theorem inir : Statement .inir :=
  ⟨(by decide : 1 ≤ 2), (by decide : 2 ≤ 4)⟩

theorem indr : Statement .indr :=
  ⟨(by decide : 1 ≤ 2), (by decide : 2 ≤ 4)⟩

theorem outi : Statement .outi :=
  ⟨(by decide : 1 ≤ 2), (by decide : 2 ≤ 4)⟩

theorem outd : Statement .outd :=
  ⟨(by decide : 1 ≤ 2), (by decide : 2 ≤ 4)⟩

theorem otir : Statement .otir :=
  ⟨(by decide : 1 ≤ 2), (by decide : 2 ≤ 4)⟩

theorem otdr : Statement .otdr :=
  ⟨(by decide : 1 ≤ 2), (by decide : 2 ≤ 4)⟩

theorem addIXPP (pp : RegPP) : Statement (.addIXPP pp) :=
  ⟨(by decide : 1 ≤ 2), (by decide : 2 ≤ 4)⟩

theorem ldIXNN (nn : Word) : Statement (.ldIXNN nn) :=
  ⟨(by decide : 1 ≤ 4), (by decide : 4 ≤ 4)⟩

theorem ldAtNNIX (nn : Word) : Statement (.ldAtNNIX nn) :=
  ⟨(by decide : 1 ≤ 4), (by decide : 4 ≤ 4)⟩

theorem ldIXAtNN (nn : Word) : Statement (.ldIXAtNN nn) :=
  ⟨(by decide : 1 ≤ 4), (by decide : 4 ≤ 4)⟩

theorem incIX : Statement .incIX :=
  ⟨(by decide : 1 ≤ 2), (by decide : 2 ≤ 4)⟩

theorem decIX : Statement .decIX :=
  ⟨(by decide : 1 ≤ 2), (by decide : 2 ≤ 4)⟩

theorem incAtIX (d : Byte) : Statement (.incAtIX d) :=
  ⟨(by decide : 1 ≤ 3), (by decide : 3 ≤ 4)⟩

theorem decAtIX (d : Byte) : Statement (.decAtIX d) :=
  ⟨(by decide : 1 ≤ 3), (by decide : 3 ≤ 4)⟩

theorem ldAtIXN (d : Byte) (n : Byte) : Statement (.ldAtIXN d n) :=
  ⟨(by decide : 1 ≤ 4), (by decide : 4 ≤ 4)⟩

theorem ldRAtIX (rd : Reg) (d : Byte) : Statement (.ldRAtIX rd d) :=
  ⟨(by decide : 1 ≤ 3), (by decide : 3 ≤ 4)⟩

theorem ldAtIXR (d : Byte) (rs : Reg) : Statement (.ldAtIXR d rs) :=
  ⟨(by decide : 1 ≤ 3), (by decide : 3 ≤ 4)⟩

theorem addAAtIX (d : Byte) : Statement (.addAAtIX d) :=
  ⟨(by decide : 1 ≤ 3), (by decide : 3 ≤ 4)⟩

theorem adcAAtIX (d : Byte) : Statement (.adcAAtIX d) :=
  ⟨(by decide : 1 ≤ 3), (by decide : 3 ≤ 4)⟩

theorem subAtIX (d : Byte) : Statement (.subAtIX d) :=
  ⟨(by decide : 1 ≤ 3), (by decide : 3 ≤ 4)⟩

theorem sbcAAtIX (d : Byte) : Statement (.sbcAAtIX d) :=
  ⟨(by decide : 1 ≤ 3), (by decide : 3 ≤ 4)⟩

theorem andAtIX (d : Byte) : Statement (.andAtIX d) :=
  ⟨(by decide : 1 ≤ 3), (by decide : 3 ≤ 4)⟩

theorem xorAtIX (d : Byte) : Statement (.xorAtIX d) :=
  ⟨(by decide : 1 ≤ 3), (by decide : 3 ≤ 4)⟩

theorem orAtIX (d : Byte) : Statement (.orAtIX d) :=
  ⟨(by decide : 1 ≤ 3), (by decide : 3 ≤ 4)⟩

theorem cpAtIX (d : Byte) : Statement (.cpAtIX d) :=
  ⟨(by decide : 1 ≤ 3), (by decide : 3 ≤ 4)⟩

theorem popIX : Statement .popIX :=
  ⟨(by decide : 1 ≤ 2), (by decide : 2 ≤ 4)⟩

theorem exAtSPIX : Statement .exAtSPIX :=
  ⟨(by decide : 1 ≤ 2), (by decide : 2 ≤ 4)⟩

theorem pushIX : Statement .pushIX :=
  ⟨(by decide : 1 ≤ 2), (by decide : 2 ≤ 4)⟩

theorem jpIX : Statement .jpIX :=
  ⟨(by decide : 1 ≤ 2), (by decide : 2 ≤ 4)⟩

theorem ldSPIX : Statement .ldSPIX :=
  ⟨(by decide : 1 ≤ 2), (by decide : 2 ≤ 4)⟩

theorem rlcAtIX (d : Byte) : Statement (.rlcAtIX d) :=
  ⟨(by decide : 1 ≤ 4), (by decide : 4 ≤ 4)⟩

theorem rrcAtIX (d : Byte) : Statement (.rrcAtIX d) :=
  ⟨(by decide : 1 ≤ 4), (by decide : 4 ≤ 4)⟩

theorem rlAtIX (d : Byte) : Statement (.rlAtIX d) :=
  ⟨(by decide : 1 ≤ 4), (by decide : 4 ≤ 4)⟩

theorem rrAtIX (d : Byte) : Statement (.rrAtIX d) :=
  ⟨(by decide : 1 ≤ 4), (by decide : 4 ≤ 4)⟩

theorem slaAtIX (d : Byte) : Statement (.slaAtIX d) :=
  ⟨(by decide : 1 ≤ 4), (by decide : 4 ≤ 4)⟩

theorem sraAtIX (d : Byte) : Statement (.sraAtIX d) :=
  ⟨(by decide : 1 ≤ 4), (by decide : 4 ≤ 4)⟩

theorem srlAtIX (d : Byte) : Statement (.srlAtIX d) :=
  ⟨(by decide : 1 ≤ 4), (by decide : 4 ≤ 4)⟩

theorem bitAtIX (b : Fin 8) (d : Byte) : Statement (.bitAtIX b d) :=
  ⟨(by decide : 1 ≤ 4), (by decide : 4 ≤ 4)⟩

theorem resAtIX (b : Fin 8) (d : Byte) : Statement (.resAtIX b d) :=
  ⟨(by decide : 1 ≤ 4), (by decide : 4 ≤ 4)⟩

theorem setAtIX (b : Fin 8) (d : Byte) : Statement (.setAtIX b d) :=
  ⟨(by decide : 1 ≤ 4), (by decide : 4 ≤ 4)⟩

theorem addIYRR (rr : RegRR) : Statement (.addIYRR rr) :=
  ⟨(by decide : 1 ≤ 2), (by decide : 2 ≤ 4)⟩

theorem ldIYNN (nn : Word) : Statement (.ldIYNN nn) :=
  ⟨(by decide : 1 ≤ 4), (by decide : 4 ≤ 4)⟩

theorem ldAtNNIY (nn : Word) : Statement (.ldAtNNIY nn) :=
  ⟨(by decide : 1 ≤ 4), (by decide : 4 ≤ 4)⟩

theorem ldIYAtNN (nn : Word) : Statement (.ldIYAtNN nn) :=
  ⟨(by decide : 1 ≤ 4), (by decide : 4 ≤ 4)⟩

theorem incIY : Statement .incIY :=
  ⟨(by decide : 1 ≤ 2), (by decide : 2 ≤ 4)⟩

theorem decIY : Statement .decIY :=
  ⟨(by decide : 1 ≤ 2), (by decide : 2 ≤ 4)⟩

theorem incAtIY (d : Byte) : Statement (.incAtIY d) :=
  ⟨(by decide : 1 ≤ 3), (by decide : 3 ≤ 4)⟩

theorem decAtIY (d : Byte) : Statement (.decAtIY d) :=
  ⟨(by decide : 1 ≤ 3), (by decide : 3 ≤ 4)⟩

theorem ldAtIYN (d : Byte) (n : Byte) : Statement (.ldAtIYN d n) :=
  ⟨(by decide : 1 ≤ 4), (by decide : 4 ≤ 4)⟩

theorem ldRAtIY (rd : Reg) (d : Byte) : Statement (.ldRAtIY rd d) :=
  ⟨(by decide : 1 ≤ 3), (by decide : 3 ≤ 4)⟩

theorem ldAtIYR (d : Byte) (rs : Reg) : Statement (.ldAtIYR d rs) :=
  ⟨(by decide : 1 ≤ 3), (by decide : 3 ≤ 4)⟩

theorem addAAtIY (d : Byte) : Statement (.addAAtIY d) :=
  ⟨(by decide : 1 ≤ 3), (by decide : 3 ≤ 4)⟩

theorem adcAAtIY (d : Byte) : Statement (.adcAAtIY d) :=
  ⟨(by decide : 1 ≤ 3), (by decide : 3 ≤ 4)⟩

theorem subAtIY (d : Byte) : Statement (.subAtIY d) :=
  ⟨(by decide : 1 ≤ 3), (by decide : 3 ≤ 4)⟩

theorem sbcAAtIY (d : Byte) : Statement (.sbcAAtIY d) :=
  ⟨(by decide : 1 ≤ 3), (by decide : 3 ≤ 4)⟩

theorem andAtIY (d : Byte) : Statement (.andAtIY d) :=
  ⟨(by decide : 1 ≤ 3), (by decide : 3 ≤ 4)⟩

theorem xorAtIY (d : Byte) : Statement (.xorAtIY d) :=
  ⟨(by decide : 1 ≤ 3), (by decide : 3 ≤ 4)⟩

theorem orAtIY (d : Byte) : Statement (.orAtIY d) :=
  ⟨(by decide : 1 ≤ 3), (by decide : 3 ≤ 4)⟩

theorem cpAtIY (d : Byte) : Statement (.cpAtIY d) :=
  ⟨(by decide : 1 ≤ 3), (by decide : 3 ≤ 4)⟩

theorem popIY : Statement .popIY :=
  ⟨(by decide : 1 ≤ 2), (by decide : 2 ≤ 4)⟩

theorem exAtSPIY : Statement .exAtSPIY :=
  ⟨(by decide : 1 ≤ 2), (by decide : 2 ≤ 4)⟩

theorem pushIY : Statement .pushIY :=
  ⟨(by decide : 1 ≤ 2), (by decide : 2 ≤ 4)⟩

theorem jpIY : Statement .jpIY :=
  ⟨(by decide : 1 ≤ 2), (by decide : 2 ≤ 4)⟩

theorem ldSPIY : Statement .ldSPIY :=
  ⟨(by decide : 1 ≤ 2), (by decide : 2 ≤ 4)⟩

theorem rlcAtIY (d : Byte) : Statement (.rlcAtIY d) :=
  ⟨(by decide : 1 ≤ 4), (by decide : 4 ≤ 4)⟩

theorem rrcAtIY (d : Byte) : Statement (.rrcAtIY d) :=
  ⟨(by decide : 1 ≤ 4), (by decide : 4 ≤ 4)⟩

theorem rlAtIY (d : Byte) : Statement (.rlAtIY d) :=
  ⟨(by decide : 1 ≤ 4), (by decide : 4 ≤ 4)⟩

theorem rrAtIY (d : Byte) : Statement (.rrAtIY d) :=
  ⟨(by decide : 1 ≤ 4), (by decide : 4 ≤ 4)⟩

theorem slaAtIY (d : Byte) : Statement (.slaAtIY d) :=
  ⟨(by decide : 1 ≤ 4), (by decide : 4 ≤ 4)⟩

theorem sraAtIY (d : Byte) : Statement (.sraAtIY d) :=
  ⟨(by decide : 1 ≤ 4), (by decide : 4 ≤ 4)⟩

theorem srlAtIY (d : Byte) : Statement (.srlAtIY d) :=
  ⟨(by decide : 1 ≤ 4), (by decide : 4 ≤ 4)⟩

theorem bitAtIY (b : Fin 8) (d : Byte) : Statement (.bitAtIY b d) :=
  ⟨(by decide : 1 ≤ 4), (by decide : 4 ≤ 4)⟩

theorem resAtIY (b : Fin 8) (d : Byte) : Statement (.resAtIY b d) :=
  ⟨(by decide : 1 ≤ 4), (by decide : 4 ≤ 4)⟩

theorem setAtIY (b : Fin 8) (d : Byte) : Statement (.setAtIY b d) :=
  ⟨(by decide : 1 ≤ 4), (by decide : 4 ≤ 4)⟩

end Sys2Proof.Laws.EncodedLength
end

