-- ==== Sys2Proof/Tests/Slice0.lean ====
section
/-!
SUPPORT. Tests of Slice0: ill-formed terms refused, one word of every constructor decoded, single steps with results from
95_test_vectors.md, what the host asks of the model, and one witness for each claim that has hypotheses.
-/
namespace Sys2Proof.Tests

open Sys2Proof.Machine

/-! ## WellFormed: one ill-formed term for each check -/

/-- R118: `NEG` does not exist under `GEN = I80`. -/
theorem test_z80_only_ill_formed : Instr.neg.wellFormed { Params.default with gen := .i80 } = false := by decide

/-- R119: `NOP` is tier C and is not admitted under `TIER_C = fault`. -/
theorem test_tier_c_ill_formed : Instr.nop.wellFormed { Params.default with tierC := .fault } = false := by decide

theorem test_both_well_formed : Instr.neg.wellFormed Params.default = true ∧ Instr.nop.wellFormed Params.default = true := by
  decide

/-! ## Decode: a word of every row of opcode_table.json, its operands read by R40 to R43, R111 to R117 -/

/-- The bytes, zeros after them, decode to this instruction and count as many bytes. -/
def reads (bytes : List Byte) (i : Instr) : Bool :=
  decide (decode Params.default (bytes.getD 0 0) (bytes.getD 1 0) (bytes.getD 2 0) (bytes.getD 3 0) = .ok i bytes.length)

theorem test_decode_base_1 :
    reads [0x4B] (.ldRR .c .e) = true ∧
    reads [0x26, 0xA5] (.ldRN .h 0xA5) = true ∧
    reads [0x66] (.ldRAtHL .h) = true ∧
    reads [0x74] (.ldAtHLR .h) = true ∧
    reads [0x36, 0xA5] (.ldAtHLN 0xA5) = true ∧
    reads [0x0A] .ldAAtBC = true ∧
    reads [0x1A] .ldAAtDE = true ∧
    reads [0x02] .ldAtBCA = true ∧
    reads [0x12] .ldAtDEA = true ∧
    reads [0x3A, 0x34, 0x12] (.ldAAtNN 0x1234) = true ∧
    reads [0x32, 0x34, 0x12] (.ldAtNNA 0x1234) = true ∧
    reads [0x21, 0x34, 0x12] (.ldSSNN .hl 0x1234) = true := by
  decide

theorem test_decode_base_2 :
    reads [0x2A, 0x34, 0x12] (.ldHLAtNN 0x1234) = true ∧
    reads [0x22, 0x34, 0x12] (.ldAtNNHL 0x1234) = true ∧
    reads [0xF9] .ldSPHL = true ∧
    reads [0xE5] (.pushQQ .hl) = true ∧
    reads [0xE1] (.popQQ .hl) = true ∧
    reads [0x84] (.addAR .h) = true ∧
    reads [0xC6, 0xA5] (.addAN 0xA5) = true ∧
    reads [0x86] .addAAtHL = true ∧
    reads [0x8C] (.adcAR .h) = true ∧
    reads [0xCE, 0xA5] (.adcAN 0xA5) = true ∧
    reads [0x8E] .adcAAtHL = true ∧
    reads [0x94] (.subR .h) = true := by
  decide

theorem test_decode_base_3 :
    reads [0xD6, 0xA5] (.subN 0xA5) = true ∧
    reads [0x96] .subAtHL = true ∧
    reads [0x9C] (.sbcAR .h) = true ∧
    reads [0xDE, 0xA5] (.sbcAN 0xA5) = true ∧
    reads [0x9E] .sbcAAtHL = true ∧
    reads [0xA4] (.andR .h) = true ∧
    reads [0xE6, 0xA5] (.andN 0xA5) = true ∧
    reads [0xA6] .andAtHL = true ∧
    reads [0xAC] (.xorR .h) = true ∧
    reads [0xEE, 0xA5] (.xorN 0xA5) = true ∧
    reads [0xAE] .xorAtHL = true ∧
    reads [0xB4] (.orR .h) = true := by
  decide

theorem test_decode_base_4 :
    reads [0xF6, 0xA5] (.orN 0xA5) = true ∧
    reads [0xB6] .orAtHL = true ∧
    reads [0xBC] (.cpR .h) = true ∧
    reads [0xFE, 0xA5] (.cpN 0xA5) = true ∧
    reads [0xBE] .cpAtHL = true ∧
    reads [0x24] (.incR .h) = true ∧
    reads [0x34] .incAtHL = true ∧
    reads [0x25] (.decR .h) = true ∧
    reads [0x35] .decAtHL = true ∧
    reads [0x29] (.addHLSS .hl) = true ∧
    reads [0x23] (.incSS .hl) = true ∧
    reads [0x2B] (.decSS .hl) = true := by
  decide

theorem test_decode_base_5 :
    reads [0x07] .rlca = true ∧
    reads [0x0F] .rrca = true ∧
    reads [0x17] .rla = true ∧
    reads [0x1F] .rra = true ∧
    reads [0x27] .daa = true ∧
    reads [0x2F] .cpl = true ∧
    reads [0x37] .scf = true ∧
    reads [0x3F] .ccf = true ∧
    reads [0x76] .halt = true ∧
    reads [0x00] .nop = true ∧
    reads [0x08] .exAFAF = true ∧
    reads [0x10, 0xA5] (.djnz 0xA5) = true := by
  decide

theorem test_decode_base_6 :
    reads [0x18, 0xA5] (.jr 0xA5) = true ∧
    reads [0x30, 0xA5] (.jrCC .nc 0xA5) = true ∧
    reads [0xC3, 0x34, 0x12] (.jp 0x1234) = true ∧
    reads [0xEA, 0x34, 0x12] (.jpCC .pe 0x1234) = true ∧
    reads [0xE9] .jpHL = true ∧
    reads [0xCD, 0x34, 0x12] (.call 0x1234) = true ∧
    reads [0xEC, 0x34, 0x12] (.callCC .pe 0x1234) = true ∧
    reads [0xC9] .ret = true ∧
    reads [0xE8] (.retCC .pe) = true ∧
    reads [0xEF] (.rst 5) = true ∧
    reads [0xD3, 0xA5] (.outAtNA 0xA5) = true ∧
    reads [0xDB, 0xA5] (.inAAtN 0xA5) = true := by
  decide

theorem test_decode_base_7 :
    reads [0xD9] .exx = true ∧
    reads [0xE3] .exAtSPHL = true ∧
    reads [0xEB] .exDEHL = true ∧
    reads [0xF3] .di = true ∧
    reads [0xFB] .ei = true := by
  decide

theorem test_decode_cb_1 :
    reads [0xCB, 0x04] (.rlcR .h) = true ∧
    reads [0xCB, 0x06] .rlcAtHL = true ∧
    reads [0xCB, 0x0C] (.rrcR .h) = true ∧
    reads [0xCB, 0x0E] .rrcAtHL = true ∧
    reads [0xCB, 0x14] (.rlR .h) = true ∧
    reads [0xCB, 0x16] .rlAtHL = true ∧
    reads [0xCB, 0x1C] (.rrR .h) = true ∧
    reads [0xCB, 0x1E] .rrAtHL = true ∧
    reads [0xCB, 0x24] (.slaR .h) = true ∧
    reads [0xCB, 0x26] .slaAtHL = true ∧
    reads [0xCB, 0x2C] (.sraR .h) = true ∧
    reads [0xCB, 0x2E] .sraAtHL = true := by
  decide

theorem test_decode_cb_2 :
    reads [0xCB, 0x3C] (.srlR .h) = true ∧
    reads [0xCB, 0x3E] .srlAtHL = true ∧
    reads [0xCB, 0x6A] (.bitR 5 .d) = true ∧
    reads [0xCB, 0x6E] (.bitAtHL 5) = true ∧
    reads [0xCB, 0xAA] (.resR 5 .d) = true ∧
    reads [0xCB, 0xAE] (.resAtHL 5) = true ∧
    reads [0xCB, 0xEA] (.setR 5 .d) = true ∧
    reads [0xCB, 0xEE] (.setAtHL 5) = true := by
  decide

theorem test_decode_ed_1 :
    reads [0xED, 0x60] (.inRAtC .h) = true ∧
    reads [0xED, 0x61] (.outAtCR .h) = true ∧
    reads [0xED, 0x62] (.sbcHLSS .hl) = true ∧
    reads [0xED, 0x6A] (.adcHLSS .hl) = true ∧
    reads [0xED, 0x63, 0x34, 0x12] (.ldAtNNSS 0x1234 .hl) = true ∧
    reads [0xED, 0x6B, 0x34, 0x12] (.ldSSAtNN .hl 0x1234) = true ∧
    reads [0xED, 0x44] .neg = true ∧
    reads [0xED, 0x45] .retn = true ∧
    reads [0xED, 0x4D] .reti = true ∧
    reads [0xED, 0x46] .im0 = true ∧
    reads [0xED, 0x56] .im1 = true ∧
    reads [0xED, 0x5E] .im2 = true := by
  decide

theorem test_decode_ed_2 :
    reads [0xED, 0x47] .ldIA = true ∧
    reads [0xED, 0x4F] .ldRA = true ∧
    reads [0xED, 0x57] .ldAI = true ∧
    reads [0xED, 0x5F] .ldAR = true ∧
    reads [0xED, 0x67] .rrd = true ∧
    reads [0xED, 0x6F] .rld = true ∧
    reads [0xED, 0xA0] .ldi = true ∧
    reads [0xED, 0xA8] .ldd = true ∧
    reads [0xED, 0xB0] .ldir = true ∧
    reads [0xED, 0xB8] .lddr = true ∧
    reads [0xED, 0xA1] .cpi = true ∧
    reads [0xED, 0xA9] .cpd = true := by
  decide

theorem test_decode_ed_3 :
    reads [0xED, 0xB1] .cpir = true ∧
    reads [0xED, 0xB9] .cpdr = true ∧
    reads [0xED, 0xA2] .ini = true ∧
    reads [0xED, 0xAA] .ind = true ∧
    reads [0xED, 0xB2] .inir = true ∧
    reads [0xED, 0xBA] .indr = true ∧
    reads [0xED, 0xA3] .outi = true ∧
    reads [0xED, 0xAB] .outd = true ∧
    reads [0xED, 0xB3] .otir = true ∧
    reads [0xED, 0xBB] .otdr = true := by
  decide

theorem test_decode_dd_1 :
    reads [0xDD, 0x29] (.addIXPP .ix) = true ∧
    reads [0xDD, 0x21, 0x34, 0x12] (.ldIXNN 0x1234) = true ∧
    reads [0xDD, 0x22, 0x34, 0x12] (.ldAtNNIX 0x1234) = true ∧
    reads [0xDD, 0x2A, 0x34, 0x12] (.ldIXAtNN 0x1234) = true ∧
    reads [0xDD, 0x23] .incIX = true ∧
    reads [0xDD, 0x2B] .decIX = true ∧
    reads [0xDD, 0x34, 0x85] (.incAtIX 0x85) = true ∧
    reads [0xDD, 0x35, 0x85] (.decAtIX 0x85) = true ∧
    reads [0xDD, 0x36, 0x85, 0xA5] (.ldAtIXN 0x85 0xA5) = true ∧
    reads [0xDD, 0x66, 0x85] (.ldRAtIX .h 0x85) = true ∧
    reads [0xDD, 0x74, 0x85] (.ldAtIXR 0x85 .h) = true ∧
    reads [0xDD, 0x86, 0x85] (.addAAtIX 0x85) = true := by
  decide

theorem test_decode_dd_2 :
    reads [0xDD, 0x8E, 0x85] (.adcAAtIX 0x85) = true ∧
    reads [0xDD, 0x96, 0x85] (.subAtIX 0x85) = true ∧
    reads [0xDD, 0x9E, 0x85] (.sbcAAtIX 0x85) = true ∧
    reads [0xDD, 0xA6, 0x85] (.andAtIX 0x85) = true ∧
    reads [0xDD, 0xAE, 0x85] (.xorAtIX 0x85) = true ∧
    reads [0xDD, 0xB6, 0x85] (.orAtIX 0x85) = true ∧
    reads [0xDD, 0xBE, 0x85] (.cpAtIX 0x85) = true ∧
    reads [0xDD, 0xE1] .popIX = true ∧
    reads [0xDD, 0xE3] .exAtSPIX = true ∧
    reads [0xDD, 0xE5] .pushIX = true ∧
    reads [0xDD, 0xE9] .jpIX = true ∧
    reads [0xDD, 0xF9] .ldSPIX = true := by
  decide

theorem test_decode_fd_1 :
    reads [0xFD, 0x29] (.addIYRR .iy) = true ∧
    reads [0xFD, 0x21, 0x34, 0x12] (.ldIYNN 0x1234) = true ∧
    reads [0xFD, 0x22, 0x34, 0x12] (.ldAtNNIY 0x1234) = true ∧
    reads [0xFD, 0x2A, 0x34, 0x12] (.ldIYAtNN 0x1234) = true ∧
    reads [0xFD, 0x23] .incIY = true ∧
    reads [0xFD, 0x2B] .decIY = true ∧
    reads [0xFD, 0x34, 0x85] (.incAtIY 0x85) = true ∧
    reads [0xFD, 0x35, 0x85] (.decAtIY 0x85) = true ∧
    reads [0xFD, 0x36, 0x85, 0xA5] (.ldAtIYN 0x85 0xA5) = true ∧
    reads [0xFD, 0x66, 0x85] (.ldRAtIY .h 0x85) = true ∧
    reads [0xFD, 0x74, 0x85] (.ldAtIYR 0x85 .h) = true ∧
    reads [0xFD, 0x86, 0x85] (.addAAtIY 0x85) = true := by
  decide

theorem test_decode_fd_2 :
    reads [0xFD, 0x8E, 0x85] (.adcAAtIY 0x85) = true ∧
    reads [0xFD, 0x96, 0x85] (.subAtIY 0x85) = true ∧
    reads [0xFD, 0x9E, 0x85] (.sbcAAtIY 0x85) = true ∧
    reads [0xFD, 0xA6, 0x85] (.andAtIY 0x85) = true ∧
    reads [0xFD, 0xAE, 0x85] (.xorAtIY 0x85) = true ∧
    reads [0xFD, 0xB6, 0x85] (.orAtIY 0x85) = true ∧
    reads [0xFD, 0xBE, 0x85] (.cpAtIY 0x85) = true ∧
    reads [0xFD, 0xE1] .popIY = true ∧
    reads [0xFD, 0xE3] .exAtSPIY = true ∧
    reads [0xFD, 0xE5] .pushIY = true ∧
    reads [0xFD, 0xE9] .jpIY = true ∧
    reads [0xFD, 0xF9] .ldSPIY = true := by
  decide

theorem test_decode_ddcb_1 :
    reads [0xDD, 0xCB, 0x85, 0x06] (.rlcAtIX 0x85) = true ∧
    reads [0xDD, 0xCB, 0x85, 0x0E] (.rrcAtIX 0x85) = true ∧
    reads [0xDD, 0xCB, 0x85, 0x16] (.rlAtIX 0x85) = true ∧
    reads [0xDD, 0xCB, 0x85, 0x1E] (.rrAtIX 0x85) = true ∧
    reads [0xDD, 0xCB, 0x85, 0x26] (.slaAtIX 0x85) = true ∧
    reads [0xDD, 0xCB, 0x85, 0x2E] (.sraAtIX 0x85) = true ∧
    reads [0xDD, 0xCB, 0x85, 0x3E] (.srlAtIX 0x85) = true ∧
    reads [0xDD, 0xCB, 0x85, 0x6E] (.bitAtIX 5 0x85) = true ∧
    reads [0xDD, 0xCB, 0x85, 0xAE] (.resAtIX 5 0x85) = true ∧
    reads [0xDD, 0xCB, 0x85, 0xEE] (.setAtIX 5 0x85) = true := by
  decide

theorem test_decode_fdcb_1 :
    reads [0xFD, 0xCB, 0x85, 0x06] (.rlcAtIY 0x85) = true ∧
    reads [0xFD, 0xCB, 0x85, 0x0E] (.rrcAtIY 0x85) = true ∧
    reads [0xFD, 0xCB, 0x85, 0x16] (.rlAtIY 0x85) = true ∧
    reads [0xFD, 0xCB, 0x85, 0x1E] (.rrAtIY 0x85) = true ∧
    reads [0xFD, 0xCB, 0x85, 0x26] (.slaAtIY 0x85) = true ∧
    reads [0xFD, 0xCB, 0x85, 0x2E] (.sraAtIY 0x85) = true ∧
    reads [0xFD, 0xCB, 0x85, 0x3E] (.srlAtIY 0x85) = true ∧
    reads [0xFD, 0xCB, 0x85, 0x6E] (.bitAtIY 5 0x85) = true ∧
    reads [0xFD, 0xCB, 0x85, 0xAE] (.resAtIY 5 0x85) = true ∧
    reads [0xFD, 0xCB, 0x85, 0xEE] (.setAtIY 5 0x85) = true := by
  decide

/-- R119, R131, R132: reserved encodings of every table. -/
theorem test_decode_reserved :
    decode Params.default 0xCB 0x30 0 0 = .error .noCB 2 ∧ decode Params.default 0xED 0x77 0 0 = .error .noED 2 ∧
      decode Params.default 0xDD 0x24 0 0 = .error .noDD 2 ∧ decode Params.default 0xFD 0xFD 0 0 = .error .noFD 2 ∧
      decode Params.default 0xDD 0xCB 0x05 0x00 = .error .noDDCB 4 ∧ decode Params.default 0xFD 0xCB 0x05 0x36 = .error .noFDCB 4 := by
  decide

/-- R118: the first of the twelve bytes that `I80` does not have. -/
theorem test_decode_i80 : decode { Params.default with gen := .i80 } 0x08 0 0 0 = .error .z80Only 1 := by decide

/-! ## Single steps -/

/-- A run about to start at 0x0000 with these bytes there. -/
def prog (bytes : List Byte) : State := { State.reset.placeBytes 0 bytes with status := .running }

/-- The step answers a next state of which this holds. -/
def gives (s : State) (p : State → Bool) : Bool :=
  match step s with
  | .next t => p t
  | .fault _ => false
  | .refused _ => false

/-- 2.1.2. -/
theorem test_ld_h_from_hl :
    gives { (prog [0x66]).writeByte 0x1234 0x77 with h := 0x12, l := 0x34 }
      (fun t => t.h == 0x77 && t.l == 0x34) = true := by decide

/-- 2.1.5. -/
theorem test_ld_hl_from_h :
    gives { prog [0x74] with h := 0x80 }
      (fun t => t.readByte 0x8000 == 0x80) = true := by decide

/-- 2.1.7. -/
theorem test_ld_a_ix_wraps_down :
    gives ((prog [0xDD, 0x7E, 0xFF]).writeByte 0xFFFF 0x42)
      (fun t => t.a == 0x42 && t.pc == 3) = true := by decide

/-- 2.1.8. -/
theorem test_ld_iy_b_wraps_up :
    gives { prog [0xFD, 0x70, 0x7F] with iy := 0xFFF0, b := 0x99 }
      (fun t => t.readByte 0x006F == 0x99) = true := by decide

/-- 2.1.9. -/
theorem test_ld_ix_n :
    gives { prog [0xDD, 0x36, 0x80, 0xA5] with ix := 0x1080 }
      (fun t => t.readByte 0x1000 == 0xA5 && t.pc == 4) = true := by decide

/-- 2.1.11. -/
theorem test_ld_a_bc :
    gives { (prog [0x0A]).writeByte 0x4000 0x11 with b := 0x40 }
      (fun t => t.a == 0x11) = true := by decide

/-- 2.1.14. -/
theorem test_ld_de_a :
    gives { prog [0x12] with d := 0x40, e := 0x03, a := 0x44 }
      (fun t => t.readByte 0x4003 == 0x44) = true := by decide

/-- 2.1.15. -/
theorem test_ld_a_nn :
    gives ((prog [0x3A, 0x34, 0x12]).writeByte 0x1234 0x9C)
      (fun t => t.a == 0x9C && t.pc == 3) = true := by decide

/-- 2.1.23. -/
theorem test_ld_nn_hl :
    gives { prog [0x22, 0x00, 0x90] with h := 0xBE, l := 0xEF }
      (fun t => t.readByte 0x9000 == 0xEF && t.readByte 0x9001 == 0xBE) = true := by decide

/-- 2.1.27. -/
theorem test_ld_sp_at_nn :
    gives ((prog [0xED, 0x7B, 0x00, 0x90]).writeByte 0x9001 0xF0)
      (fun t => t.sp == 0xF000) = true := by decide

/-- 2.1.36. -/
theorem test_ld_a_i :
    gives { prog [0xED, 0x57] with i := 0x80, f := Flags.ofByte 0x01 }
      (fun t => t.a == 0x80 && t.f.s && !t.f.z && t.f.c) = true := by decide

/-- 2.1.38. -/
theorem test_ld_r_a :
    gives { prog [0xED, 0x4F] with a := 0xFE }
      (fun t => t.r == 0xFE) = true := by decide

/-- 2.1.40. -/
theorem test_ld_a_r :
    gives { prog [0xED, 0x5F] with r := 0xFE }
      (fun t => t.a == 0x00 && t.f.z && t.r == 0x00) = true := by decide

/-- 2.1.42. -/
theorem test_push_af_wraps :
    gives { prog [0xF5] with a := 0x12, f := Flags.ofByte 0xD7, sp := 0x0001, pc := 0x0000 }
      (fun t => t.sp == 0xFFFF && t.readByte 0x0000 == 0x12 && t.readByte 0xFFFF == 0xD7) = true := by decide

/-- 2.1.46. -/
theorem test_pop_iy :
    gives { ((prog [0xFD, 0xE1]).writeByte 0x8000 0x0D).writeByte 0x8001 0xF0 with sp := 0x8000 }
      (fun t => t.iy == 0xF00D && t.sp == 0x8002) = true := by decide

/-- 2.2.2. -/
theorem test_ldi :
    gives { (prog [0xED, 0xA0]).writeByte 0xFFFF 0x5A with h := 0xFF, l := 0xFF, d := 0xFF, e := 0xFF }
      (fun t => t.bc == 0xFFFF && t.de == 0x0000 && t.hl == 0x0000 && t.f.pv) = true := by decide

/-- 2.2.3. -/
theorem test_ldd :
    gives { (prog [0xED, 0xA8]).writeByte 0x1000 0x77 with h := 0x10, c := 0x02 }
      (fun t => t.readByte 0x0000 == 0x77 && t.de == 0xFFFF && t.hl == 0x0FFF) = true := by decide

/-- 2.2.5. -/
theorem test_ldir_overlap :
    gives { (((((prog [0xED, 0xB0]).writeByte 0x1000 0xEE).writeByte 0x1001 0x01).writeByte 0x1002 0x02).writeByte 0x1003 0x03).writeByte 0x1004 0x04 with h := 0x10, d := 0x10, e := 0x01, c := 0x04 }
      (fun t => t.readByte 0x1004 == 0xEE && t.bc == 0 && t.hl == 0x1004 && !t.f.pv) = true := by decide

/-- 2.2.6. -/
theorem test_lddr_overlap :
    gives { ((((prog [0xED, 0xB8]).writeByte 0x1000 0x01).writeByte 0x1001 0x02).writeByte 0x1002 0x03).writeByte 0x1003 0x04 with h := 0x10, l := 0x03, d := 0x10, e := 0x04, c := 0x04 }
      (fun t => t.readByte 0x1001 == 1 && t.readByte 0x1004 == 4 && t.hl == 0x0FFF) = true := by decide

/-- 2.2.10. -/
theorem test_cpi :
    gives { (prog [0xED, 0xA1]).writeByte 0x1000 0x20 with a := 0x10, h := 0x10, c := 0x01 }
      (fun t => t.f.s && !t.f.z && !t.f.pv && t.f.c) = true := by decide

/-- 2.2.12. -/
theorem test_cpd :
    gives { prog [0xED, 0xA9] with a := 0x80 }
      (fun t => t.bc == 0xFFFF && t.hl == 0xFFFF && t.f.s && t.f.h && t.f.c) = true := by decide

/-- 2.2.13. -/
theorem test_cpir_match :
    gives { (((prog [0xED, 0xB1]).writeByte 0x1000 0x48).writeByte 0x1001 0x49).writeByte 0x1003 0x4A with h := 0x10, c := 0x10 }
      (fun t => t.bc == 0x000D && t.hl == 0x1003 && t.f.z && t.f.pv) = true := by decide

/-- 2.2.15. -/
theorem test_cpdr_match :
    gives { (((prog [0xED, 0xB9]).writeByte 0x1000 0x01).writeByte 0x1001 0x02).writeByte 0x1002 0x03 with a := 0x02, h := 0x10, l := 0x02, c := 0x03 }
      (fun t => t.bc == 1 && t.hl == 0x1000 && t.f.z) = true := by decide

/-- 2.3.3. -/
theorem test_add_a_a :
    gives { prog [0x87] with a := 0x80 }
      (fun t => t.a == 0 && t.f.pv && t.f.c && !t.f.h) = true := by decide

/-- 2.3.37. -/
theorem test_adc_a_ix :
    gives { (prog [0xDD, 0x8E, 0x02]).writeByte 0x3002 0x0F with a := 0x10, ix := 0x3000, f := Flags.ofByte 0x01 }
      (fun t => t.a == 0x20 && t.f.h && !t.f.c) = true := by decide

/-- 2.3.38. -/
theorem test_sub_iy :
    gives { (prog [0xFD, 0x96, 0xFE]).writeByte 0x3000 0x11 with a := 0x10, iy := 0x3002 }
      (fun t => t.a == 0xFF && t.f.s && t.f.h && t.f.c && t.f.n) = true := by decide

/-- 2.3.9. -/
theorem test_sbc_borrow_through :
    gives { prog [0x98] with b := 0xFF, f := Flags.ofByte 0x01 }
      (fun t => t.a == 0 && t.f.z && t.f.h && t.f.c) = true := by decide

/-- 2.3.12. -/
theorem test_cp_keeps_a :
    gives { prog [0xFE, 0x80] with a := 0x7F }
      (fun t => t.a == 0x7F && t.f.s && t.f.pv && t.f.c) = true := by decide

/-- 2.3.40. -/
theorem test_and_sets_h :
    gives { prog [0xA0] with a := 0xF0, b := 0x0F, f := Flags.ofByte 0x01 }
      (fun t => t.a == 0 && t.f.h && t.f.pv && !t.f.c) = true := by decide

/-- 2.3.43. -/
theorem test_xor_n :
    gives { prog [0xEE, 0xFF] with a := 0x0F }
      (fun t => t.a == 0xF0 && t.f.s && t.f.pv && !t.f.h) = true := by decide

/-- 2.3.44. -/
theorem test_or_hl :
    gives { (prog [0xB6]).writeByte 0x3000 0x02 with a := 0x01, h := 0x30 }
      (fun t => t.a == 3 && t.f.pv) = true := by decide

/-- 2.3.48. -/
theorem test_inc_hl_keeps_c :
    gives { (prog [0x34]).writeByte 0x3000 0xFF with h := 0x30, f := Flags.ofByte 0x01 }
      (fun t => t.readByte 0x3000 == 0 && t.f.z && t.f.h && t.f.c) = true := by decide

/-- 2.3.15. -/
theorem test_dec_b_overflow :
    gives { prog [0x05] with b := 0x80, f := Flags.ofByte 0x01 }
      (fun t => t.b == 0x7F && t.f.pv && t.f.n && t.f.c) = true := by decide

/-- 2.4.1. -/
theorem test_add_hl_half_carry :
    gives { prog [0x09] with h := 0x0F, l := 0xFF, c := 0x01, f := Flags.ofByte 0xC4 }
      (fun t => t.hl == 0x1000 && t.f.h && t.f.s && t.f.z && t.f.pv) = true := by decide

/-- 2.7.3. -/
theorem test_ex_af_af :
    gives { prog [0x08] with a := 0x12, f := Flags.ofByte 0x01, aAlt := 0x99, fAlt := Flags.ofByte 0x40 }
      (fun t => t.a == 0x99 && t.aAlt == 0x12 && t.f.toByte == 0x40 && t.fAlt.toByte == 0x01) = true := by decide

/-- 2.7.4. -/
theorem test_exx :
    gives { prog [0xD9] with b := 1, hAlt := 0x15, lAlt := 0x16 }
      (fun t => t.bAlt == 1 && t.hl == 0x1516) = true := by decide

/-- 2.7.7. -/
theorem test_ex_sp_ix :
    gives { ((prog [0xDD, 0xE3]).writeByte 0x8000 0x34).writeByte 0x8001 0x12 with ix := 0xABCD, sp := 0x8000 }
      (fun t => t.ix == 0x1234 && t.readByte 0x8000 == 0xCD && t.readByte 0x8001 == 0xAB) = true := by decide

/-- 2.8.1. -/
theorem test_cpl :
    gives { prog [0x2F] with a := 0x5A, f := Flags.ofByte 0x45 }
      (fun t => t.a == 0xA5 && t.f.h && t.f.n && t.f.z && t.f.c) = true := by decide

/-- 2.8.2. -/
theorem test_ccf :
    gives { prog [0x3F] with f := Flags.ofByte 0x03 }
      (fun t => t.f.h && !t.f.c && !t.f.n) = true := by decide

/-- 2.8.7. -/
theorem test_neg :
    gives { prog [0xED, 0x44] with a := 0x80 }
      (fun t => t.a == 0x80 && t.f.pv && t.f.c && !t.f.h) = true := by decide

/-- 2.8.21. -/
theorem test_daa_row_5 :
    gives { prog [0x27] with a := 0x9A }
      (fun t => t.a == 0 && t.f.z && t.f.h && t.f.c) = true := by decide

/-- 2.8.18. -/
theorem test_daa_row_11 :
    gives { prog [0x27] with a := 0x8F, f := Flags.ofByte 0x12 }
      (fun t => t.a == 0x89 && t.f.n && !t.f.c) = true := by decide

/-- 2.8.26. -/
theorem test_halt :
    gives (prog [0x76])
      (fun t => decide (t.status = .idle) && t.pc == 1 && t.r == 1) = true := by decide

/-- 2.9.2. -/
theorem test_out_n_a :
    gives { prog [0xD3, 0x10] with a := 0x5C }
      (fun t => decide (t.ioTrace = [.output 0x10 0x5C])) = true := by decide

/-- 2.9.17. -/
theorem test_otdr :
    gives { ((prog [0xED, 0xBB]).writeByte 0x6000 0x01).writeByte 0x6001 0x02 with b := 0x02, c := 0x40, h := 0x60, l := 0x01 }
      (fun t => decide (t.ioTrace = [.output 0x40 2, .output 0x40 1]) && t.f.z && t.b == 0) = true := by decide

/-- 2.10.13. -/
theorem test_decode_error :
    gives (prog [0xED, 0x00])
      (fun t => decide (t.status = .faulted 0x0000 [0xED, 0x00] false)) = true := by decide

/-- 2.4.7. -/
theorem test_adc_hl_overflow :
    gives { prog [0xED, 0x5A] with h := 0x7F, l := 0xFF, f := Flags.ofByte 0x01 }
      (fun t => t.hl == 0x8000 && t.f.s && t.f.pv && t.f.h && !t.f.c) = true := by decide

/-- 2.4.11. -/
theorem test_sbc_hl_overflow :
    gives { prog [0xED, 0x52] with h := 0x80, e := 0x01 }
      (fun t => t.hl == 0x7FFF && t.f.pv && t.f.h && !t.f.c && t.f.n) = true := by decide

/-- 2.4.17. -/
theorem test_dec_de_wraps :
    gives (prog [0x1B])
      (fun t => t.de == 0xFFFF) = true := by decide

/-- 2.4.20. -/
theorem test_add_ix_ix :
    gives { prog [0xDD, 0x29] with ix := 0x0800, h := 0x11 }
      (fun t => t.ix == 0x1000 && t.f.h && !t.f.c) = true := by decide

/-- 2.4.22. -/
theorem test_add_iy_sp :
    gives { prog [0xFD, 0x39] with iy := 0x0001, sp := 0x0FFF }
      (fun t => t.iy == 0x1000 && t.f.h) = true := by decide

/-- 2.4.24. -/
theorem test_dec_iy_wraps :
    gives (prog [0xFD, 0x2B])
      (fun t => t.iy == 0xFFFF) = true := by decide

/-- 2.5.1. -/
theorem test_rlca_keeps_s_z_pv :
    gives { prog [0x07] with a := 0x81, f := Flags.ofByte 0xC4 }
      (fun t => t.a == 0x03 && t.f.c && t.f.s && t.f.z && t.f.pv) = true := by decide

/-- 2.5.5. -/
theorem test_rra :
    gives { prog [0x1F] with a := 0x01, f := Flags.ofByte 0x01 }
      (fun t => t.a == 0x80 && t.f.c) = true := by decide

/-- 2.5.9. -/
theorem test_rl_a_sets_z :
    gives { prog [0xCB, 0x17] with a := 0x80 }
      (fun t => t.a == 0 && t.f.z && t.f.c && t.f.pv) = true := by decide

/-- 2.5.12. -/
theorem test_sra_e :
    gives { prog [0xCB, 0x2B] with e := 0x81 }
      (fun t => t.e == 0xC0 && t.f.c && t.f.s) = true := by decide

/-- 2.5.14. -/
theorem test_srl_a :
    gives { prog [0xCB, 0x3F] with a := 0xFF }
      (fun t => t.a == 0x7F && t.f.c && !t.f.s) = true := by decide

/-- 2.5.16. -/
theorem test_rr_iy :
    gives { (prog [0xFD, 0xCB, 0xFF, 0x1E]).writeByte 0x2FFF 0x02 with iy := 0x3000, f := Flags.ofByte 0x01 }
      (fun t => t.readByte 0x2FFF == 0x81 && !t.f.c && t.f.pv) = true := by decide

/-- 2.5.21. -/
theorem test_bit_iy :
    gives { (prog [0xFD, 0xCB, 0x03, 0x5E]).writeByte 0x3003 0x08 with iy := 0x3000 }
      (fun t => !t.f.z && t.f.h && !t.f.n) = true := by decide

/-- 2.5.22. -/
theorem test_set_hl :
    gives { prog [0xCB, 0xFE] with h := 0x30 }
      (fun t => t.readByte 0x3000 == 0x80) = true := by decide

/-- 2.5.26. -/
theorem test_res_iy :
    gives { (prog [0xFD, 0xCB, 0xFC, 0x9E]).writeByte 0x3000 0xFF with iy := 0x3004 }
      (fun t => t.readByte 0x3000 == 0xF7) = true := by decide

/-- 2.5.27. -/
theorem test_rrd :
    gives { (prog [0xED, 0x67]).writeByte 0x5000 0x20 with a := 0x84, h := 0x50, f := Flags.ofByte 0x01 }
      (fun t => t.a == 0x80 && t.readByte 0x5000 == 0x42 && t.f.s && t.f.c) = true := by decide

/-- 2.5.28. -/
theorem test_rld :
    gives { (prog [0xED, 0x6F]).writeByte 0x5000 0x31 with a := 0x7A, h := 0x50 }
      (fun t => t.a == 0x73 && t.readByte 0x5000 == 0x1A) = true := by decide

/-- 2.6.3. -/
theorem test_jp_nz_not_taken :
    gives { prog [0xC2, 0x00, 0x80] with f := Flags.ofByte 0x40 }
      (fun t => t.pc == 0x0003 && t.r == 3) = true := by decide

/-- 2.6.11. -/
theorem test_jp_hl_reads_no_memory :
    gives { (prog [0xE9]).writeByte 0x4321 0x99 with h := 0x43, l := 0x21 }
      (fun t => t.pc == 0x4321) = true := by decide

/-- 2.6.15, from address 0. -/
theorem test_jr_backward :
    gives (prog [0x18, 0xFE])
      (fun t => t.pc == 0x0000) = true := by decide

/-- 2.6.22, from address 0. -/
theorem test_jr_c_not_taken :
    gives (prog [0x38, 0xFB])
      (fun t => t.pc == 0x0002) = true := by decide

/-- 2.6.25, from address 0. -/
theorem test_djnz_wraps :
    gives (prog [0x10, 0xFE])
      (fun t => t.b == 0xFF && t.pc == 0x0000) = true := by decide

/-- 2.6.27, from address 0. -/
theorem test_call_wraps_sp :
    gives (prog [0xCD, 0x00, 0x20])
      (fun t => t.pc == 0x2000 && t.sp == 0xFFFE && t.readByte 0xFFFE == 0x03 && t.readByte 0xFFFF == 0x00) = true := by decide

/-- 2.6.32. -/
theorem test_ret_m_taken :
    gives { ((prog [0xF8]).writeByte 0x7FFE 0x03).writeByte 0x7FFF 0x01 with sp := 0x7FFE, f := Flags.ofByte 0x80 }
      (fun t => t.pc == 0x0103 && t.sp == 0x8000) = true := by decide

/-- 2.6.33, from address 0. -/
theorem test_rst_38 :
    gives { prog [0xFF] with sp := 0x8000 }
      (fun t => t.pc == 0x0038 && t.readByte 0x7FFE == 0x01) = true := by decide

/-- 2.6.36. -/
theorem test_retn :
    gives { ((prog [0xED, 0x45]).writeByte 0x7FFE 0x03).writeByte 0x7FFF 0x01 with sp := 0x7FFE }
      (fun t => t.pc == 0x0103 && t.sp == 0x8000) = true := by decide

/-- 2.7.1. -/
theorem test_ex_de_hl :
    gives { prog [0xEB] with d := 0x11, e := 0x22, h := 0x33, l := 0x44 }
      (fun t => t.de == 0x3344 && t.hl == 0x1122) = true := by decide

/-- 2.3.19: the same sum has the parity of its result under `GEN = I80`. -/
theorem test_add_i80_parity :
    gives { prog [0x80] with a := 0x7F, b := 0x01, params := { Params.default with gen := .i80 } }
      (fun t => t.a == 0x80 && !t.f.pv && t.f.s) = true := by decide

/-- 2.2.9: `CPBLK_C = unchanged` keeps Carry. -/
theorem test_cpi_keeps_c :
    gives { (prog [0xED, 0xA1]).writeByte 0x1000 0x42 with
        a := 0x42, h := 0x10, c := 0x05, f := Flags.ofByte 0x01, params := { Params.default with cpblkC := .unchanged } }
      (fun t => t.f.z && t.f.c) = true := by decide

/-- 2.11.1: an operand byte is fetched from 0x0000 after 0xFFFF. -/
theorem test_fetch_wraps :
    gives { (State.reset.placeBytes 0xFFFF [0x3E, 0x42]) with pc := 0xFFFF, status := .running }
      (fun t => t.a == 0x42 && t.pc == 0x0001) = true := by decide

/-- 2.9.1: the byte `IN A,(n)` loads is the event it records. -/
theorem test_in_a_n : ∃ t : State, step (prog [0xDB, 0x7F]) = .next t ∧ t.ioTrace = [.input 0x7F t.a] := ⟨_, rfl, rfl⟩

/-- 2.9.10: INI with B = 1 sets Z, stores the byte it records and moves HL. -/
theorem test_ini :
    ∃ t : State, step { prog [0xED, 0xA2] with b := 0x01, c := 0x10, h := 0x60 } = .next t ∧ t.f.z = true ∧ t.b = 0 ∧
      t.ioTrace = [.input 0x10 (Config.ioRead 0x10 [])] :=
  ⟨_, rfl, rfl, rfl, rfl⟩

/-! ## What the host asks -/

/-- Log 9: a table word, its first byte in the high bits. -/
theorem test_table_words :
    decodeTableWord 8 0x78 = some (.ldRR .a .b) ∧ decodeTableWord 16 0xCB46 = some (.bitAtHL 0) ∧
      decodeTableWord 24 0x210000 = some (.ldSSNN .hl 0) ∧ decodeTableWord 32 0xDDCB0006 = some (.rlcAtIX 0) ∧
      decodeTableWord 16 0xED00 = none := by
  decide

/-- Log 8: the instruction placed is the first one run. -/
theorem test_with_fetch_word :
    gives (State.reset.withFetchWord 16 0x3E5A) (fun t => t.a == 0x5A && t.pc == 2) = true := by decide

/-! ## Witnesses: states and operands that meet the hypotheses of each claim -/

/-- The parameters under which an access that crosses 0xFFFF has no meaning. -/
def noWrap : Params := { Params.default with wrapFfff := .fault }

/-- A run with `WRAP_FFFF = fault`. -/
def strict : State := { prog [0x00] with params := noWrap }

theorem witness_DecodeOfEncode :
    (Instr.setAtIX 7 0x80).wellFormed Params.default = true ∧ Instr.nop.wellFormed Params.default = true := by decide

theorem witness_EncodeOfDecode : decode Params.default 0xFD 0x36 0xFF 0x00 = .ok (.ldAtIYN 0xFF 0x00) 4 := by decide

theorem witness_GenerationGatesFirstByte :
    ({ Params.default with gen := .i80 } : Params).gen = .i80 ∧
      decode { Params.default with gen := .i80 } 0x07 0 0 0 = .ok .rlca 1 ∧
      ({ Params.default with gen := .i80 } : Params).tierC = .admitted ∧
      (0x07 : Byte) ∉ ([0x08, 0x10, 0x18, 0x20, 0x28, 0x30, 0x38, 0xD9, 0xCB, 0xDD, 0xED, 0xFD] : List Byte) := by
  decide

theorem witness_UndefinedEncodingsAreListed :
    Params.default.gen = .z80 ∧ decode Params.default 0xCB 0x37 0 0 = .error .noCB 2 ∧
      decode { Params.default with tierC := .fault } 0x00 0 0 0 = .error .tierC 1 := by
  decide

theorem witness_BytesFetched :
    (0xCC : Byte) ∉ ([0xCB, 0xED, 0xDD, 0xFD] : List Byte) ∧
      ¬ (((0xDD : Byte) = 0xDD ∨ (0xDD : Byte) = 0xFD) ∧ (0x36 : Byte) = 0xCB) := by
  decide

theorem witness_StepRunsDecoded :
    (prog [0x04]).status = .running ∧ decode (prog [0x04]).params 0x04 0 0 0 = .ok (.incR .b) 1 ∧
      (prog [0x04]).fetchAllowed 1 :=
  ⟨rfl, by decide, .inl rfl⟩

/-- The last fetch that `WRAP_FFFF = fault` allows, and the first it does not. -/
theorem witness_fetch_boundary :
    ({ strict with pc := 0xFFFF } : State).fetchAllowed 1 ∧ ¬ ({ strict with pc := 0xFFFF } : State).fetchAllowed 2 := by
  constructor
  · exact .inr (by decide)
  · rintro (h | h)
    · exact absurd h (by decide)
    · exact absurd h (by decide)

theorem witness_StepTakesDecodeError :
    (prog [0xED, 0xFF]).status = .running ∧ decode (prog [0xED, 0xFF]).params 0xED 0xFF 0 0 = .error .noED 2 ∧
      (prog [0xED, 0xFF]).fetchAllowed 2 :=
  ⟨rfl, by decide, .inl rfl⟩

/-- R76: a fetch that crosses, a word access that crosses, and the same instruction with the highest word that does not. -/
theorem witness_crossesTop :
    ({ strict with mem := [(0xFFFF, 0xC3)], pc := 0xFFFF } : State).crossesTop ∧
      ({ strict with mem := [(0xFFFF, 0xC5)], pc := 0xFFFF, sp := 0x0001 } : State).crossesTop ∧
      ¬ ({ strict with mem := [(0xFFFF, 0xC5)], pc := 0xFFFF, sp := 0x0000 } : State).crossesTop := by
  refine ⟨.inl ?_, .inr ⟨.pushQQ .bc, 1, 0xFFFF, by decide, rfl, ?_⟩, ?_⟩
  · rintro (h | h) <;> exact absurd h (by decide)
  · rintro (h | h) <;> exact absurd h (by decide)
  · rintro (h | ⟨i, len, addr, hd, ha, hn⟩)
    · exact h (.inr (by decide))
    · rw [show State.decodeNext _ = .ok (.pushQQ .bc) 1 by decide] at hd
      cases hd
      cases ha
      exact hn (.inr (by decide))

/-- Both ends of EveryStepCompletes. -/
theorem witness_EveryStepCompletes :
    gives (prog [0x00]) (fun t => t.pc == 1) = true ∧
      step { strict with mem := [(0xFFFF, 0xC5)], pc := 0xFFFF, sp := 0x0001 } = .refused .wrapsAtTop :=
  ⟨by decide, rfl⟩

theorem witness_ResetIsIdleAndIdleStays :
    State.reset.status ≠ .running ∧ ({ State.reset with status := .faulted 0 [0x08] false } : State).status ≠ .running := by
  decide

theorem witness_HaltEndsTheRun : (prog [0x76]).status = .running ∧ (prog [0x76]).readByte (prog [0x76]).pc = 0x76 := by decide

theorem witness_StepKeepsMemoryForm : (prog [0x36, 0x5A]).Inv ∧ ∃ t, step (prog [0x36, 0x5A]) = .next t := ⟨rfl, _, rfl⟩

theorem witness_ShadowSetOnlySwapped :
    (∃ t, exec (.incR .a) State.reset = .next t) ∧ Instr.incR .a ≠ .exAFAF ∧ Instr.incR .a ≠ .exx :=
  ⟨⟨_, rfl⟩, by decide, by decide⟩

theorem witness_ShadowSetNeverRead : Instr.ldir ≠ .exAFAF ∧ Instr.ldir ≠ .exx := by decide

theorem witness_WritersOfPcStatusIAndR :
    gives (prog [0xED, 0x47]) (fun _ => true) = true ∧
      (∃ t, exec .ldIA { State.reset with a := 1 } = .next t ∧ t.i ≠ ({ State.reset with a := 1 } : State).i) ∧
      (∃ t, exec .ldRA { State.reset with a := 1 } = .next t ∧ t.r ≠ ({ State.reset with a := 1 } : State).r) ∧
      (∃ t, exec (.jp 0x0001) State.reset = .next t ∧ t.pc ≠ State.reset.pc) ∧
      (∃ t, exec .halt (prog []) = .next t ∧ t.status ≠ (prog []).status) :=
  ⟨by decide, ⟨_, rfl, by decide⟩, ⟨_, rfl, by decide⟩, ⟨_, rfl, by decide⟩, ⟨_, rfl, by decide⟩⟩

theorem witness_WritersOfSpIxIy :
    (∃ t, exec (.incSS .sp) State.reset = .next t ∧ t.sp ≠ State.reset.sp) ∧
      (∃ t, exec .incIX State.reset = .next t ∧ t.ix ≠ State.reset.ix) ∧
      (∃ t, exec .decIY State.reset = .next t ∧ t.iy ≠ State.reset.iy) :=
  ⟨⟨_, rfl, by decide⟩, ⟨_, rfl, by decide⟩, ⟨_, rfl, by decide⟩⟩

theorem witness_TraceGrowsByIoOnly : ∃ t, exec (.outAtNA 0xFF) State.reset = .next t ∧ t.ioTrace ≠ State.reset.ioTrace :=
  ⟨_, rfl, by decide⟩

/-- The highest word address that `WRAP_FFFF = fault` allows, the one it does not, and that one under `wrap`. -/
theorem witness_word_boundary :
    strict.wordAllowed 0xFFFE ∧ ¬ strict.wordAllowed 0xFFFF ∧ (prog []).wordAllowed 0xFFFF := by
  refine ⟨.inr (by decide), ?_, .inl rfl⟩
  rintro (h | h)
  · exact absurd h (by decide)
  · exact absurd rfl h

theorem witness_WordMemoryLoads : (prog []).wordAllowed 0xFFFF ∧ strict.wordAllowed 0x0000 := ⟨.inl rfl, .inr (by decide)⟩

theorem witness_WordMemoryStores : (prog []).wordAllowed 0xFFFF ∧ strict.wordAllowed 0xFFFE := ⟨.inl rfl, .inr (by decide)⟩

theorem witness_PushesStoreAWord :
    ({ prog [] with sp := 0x0001 } : State).wordAllowed (0x0001 - 2) ∧ ({ strict with sp := 0x0002 } : State).wordAllowed (0x0002 - 2) :=
  ⟨.inl rfl, .inr (by decide)⟩

theorem witness_PopsLoadAWord :
    ({ prog [] with sp := 0xFFFF } : State).wordAllowed 0xFFFF ∧ ({ strict with sp := 0xFFFE } : State).wordAllowed 0xFFFE :=
  ⟨.inl rfl, .inr (by decide)⟩

theorem witness_PushThenPop :
    ({ prog [] with sp := 0x0001 } : State).wordAllowed (0x0001 - 2) ∧
      ∀ k ∈ [2, 4, 6, 8], ({ strict with sp := 0x0020 } : State).wordAllowed (0x0020 - BitVec.ofNat 16 k) := by
  refine ⟨.inl rfl, fun k hk => .inr ?_⟩
  revert k
  decide

theorem witness_CrossingWordAccessRefused :
    strict.params.wrapFfff = .fault ∧ ({ strict with sp := 0x0001 } : State).sp = 0x0001 ∧
      ({ strict with sp := 0xFFFF } : State).sp = 0xFFFF ∧ strict.cond .nz = true := by
  decide

theorem witness_LoadsOfIAndR : State.reset.params.rRead = .perByte := rfl

theorem witness_BlockCompare :
    State.reset.params.cpblkC = .compare ∧
      ({ State.reset with params := { Params.default with cpblkC := .unchanged } } : State).params.cpblkC = .unchanged := by
  decide

theorem witness_PvMeans : Params.default.gen = .z80 ∧ ({ Params.default with gen := .i80 } : Params).gen = .i80 := by decide

theorem witness_Jumps :
    State.reset.condJR .nz = true ∧ State.reset.condJR .c = false ∧ State.reset.b - 1 ≠ 0 ∧
      ({ State.reset with b := 1 } : State).b - 1 = 0 := by
  decide

theorem witness_Calls :
    State.reset.wordAllowed (State.reset.sp - 2) ∧ State.reset.cond .po = true ∧ State.reset.cond .m = false :=
  ⟨.inl rfl, by decide, by decide⟩

theorem witness_Returns : State.reset.wordAllowed State.reset.sp ∧ State.reset.cond .p = true ∧ State.reset.cond .pe = false :=
  ⟨.inl rfl, by decide, by decide⟩

theorem witness_Exchanges :
    ({ strict with sp := 0xFFFE } : State).wordAllowed 0xFFFE ∧ ({ prog [] with sp := 0xFFFF } : State).wordAllowed 0xFFFF :=
  ⟨.inr (by decide), .inl rfl⟩

/-- One input for each row of R152's table, the vectors 2.8.8 to 2.8.20, with the row's result. -/
theorem witness_DaaFollowsItsTable :
    (daa 0x99 false false false).res = 0x99 ∧ (daa 0x8A false false false).res = 0x90 ∧ (daa 0x93 false false true).res = 0x99 ∧
      (daa 0xF0 false false false).res = 0x50 ∧ (daa 0xFF false false false).res = 0x65 ∧ (daa 0xF0 false false true).res = 0x56 ∧
      (daa 0x29 false true false).res = 0x89 ∧ (daa 0x2A false true false).res = 0x90 ∧ (daa 0x33 false true true).res = 0x99 ∧
      (daa 0x90 true false false).res = 0x90 ∧ (daa 0x8F true false true).res = 0x89 ∧ (daa 0xF0 true true false).res = 0x90 ∧
      (daa 0xFF true true true).res = 0x99 := by
  decide

/-- R153, R395: an input no row covers; the derived example of R395; and a subtraction, where H is a borrow. -/
theorem test_daa_total :
    (daa 0x07 false false true).res = 0x0D ∧ (daa 0x07 false false true).h = false ∧ (daa 0x3C false false false).res = 0x42 ∧
      (daa 0x3C false false false).h = true ∧ (daa 0x05 true false true).res = 0xFF ∧ (daa 0x05 true false true).h = true := by
  decide

theorem witness_DaaMakesArithmeticDecimal : IsBcd 0x99 ∧ IsBcd 0x00 := by
  constructor <;> exact ⟨by decide, by decide⟩

theorem witness_StatesFollowBranchAndIterations :
    branchTaken (.djnz 0) State.reset = branchTaken (.djnz 0) { State.reset with b := 2 } ∧
      iterations (.djnz 0) State.reset = iterations (.djnz 0) { State.reset with b := 2 } ∧
      Instr.ldi ∉ [Instr.ldir, .lddr, .cpir, .cpdr, .inir, .indr, .otir, .otdr] := by
  decide

/-- R231, R238: CPIR stops at the match in its second byte, and at BC = 0 where there is none. -/
theorem test_cpir_iterations :
    iterations .cpir { prog [0x11, 0x22, 0x33] with a := 0x22, c := 3 } = 2 ∧
      iterations .cpir { prog [0x11, 0x22, 0x33] with a := 0x44, c := 3 } = 3 := by
  decide

theorem witness_HostPortContracts :
    (prog []).status = .running ∧ State.reset.status ≠ .running ∧ State.reset.status = .idle ∧ (0xFFFE : Word) ≠ 0xFFFF ∧
      ({ State.reset with status := .faulted 0 [0x08] true } : State).status = .faulted 0 [0x08] true ∧ HostReg16.sp ≠ .pc ∧
      65536 < (0xFFFF : Word).toNat + [0x01#8, 0x02#8].length ∧ (0xFFFF : Word).toNat + [0x01#8].length ≤ 65536 ∧
      ({ State.reset with status := .faulted 0 [0x08] false } : State).status = .faulted 0 [0x08] false := by
  decide

end Sys2Proof.Tests
end

/-!
PROOFS of the statements of 00_scope.md: a step of a run (O7) and the host port (O60). Each operation of the host port has
one lemma that says what it answers; the parts of `HostPortContracts` are put together from them.
-/
namespace Sys2Proof.Machine

/-! ## A step of a run (R19) -/

/-- R19, R80: where the bytes at PC decode and may be fetched, a step of a run executes what they decode to. -/
theorem step_of_decodeNext_ok {s : State} {i : Instr} {len : Nat} (hrun : s.status = .running)
    (hdec : s.decodeNext = .ok i len) (hfetch : s.fetchAllowed len) : step s = exec i (s.fetchBytes len).2 := by
  have hfree : s.fetchForbidden len = false := State.fetchForbidden_eq_false.mpr hfetch
  simp only [step, hrun, State.cycle, hdec, Decoded.length, hfree]

/-- Settles O7: fetching moves PC and R by the length, and the step is `exec` after that. -/
theorem stepRunsDecoded : Obligations.StepRunsDecoded := by
  intro s i len hrun hdec hfetch
  rw [step_of_decodeNext_ok hrun hdec hfetch, State.fetchBytes_state]

/-! ## What the host reads (R21, R24) -/

theorem State.memoryGet8_eq (s : State) (addr : Word) :
    s.memoryGet8 addr = if s.status = .running then none else some (s.readByte addr) := by
  cases h : s.status <;> simp [State.memoryGet8, h]

/-- R24: the byte at the lower address is the high one. -/
theorem State.memoryGet16_eq (s : State) (addr : Word) :
    s.memoryGet16 addr =
      if s.status = .running ∨ addr = 0xFFFF then none else some (joinBytes (s.readByte addr) (s.readByte (addr + 1))) := by
  unfold State.memoryGet16
  by_cases ha : addr = 0xFFFF
  · rw [if_pos (.inr ha), ha]
    cases s.status <;> rfl
  · rw [if_congr (or_iff_left ha) rfl rfl, beq_false_of_ne ha]
    cases s.status <;> rfl

/-- R24: the reversed pair reads the low byte at the lower address. -/
theorem State.memoryGet16Low_eq (s : State) (addr : Word) :
    s.memoryGet16Low addr = if s.status = .running ∨ addr = 0xFFFF then none else some (s.readWord addr) := by
  unfold State.memoryGet16Low
  by_cases ha : addr = 0xFFFF
  · rw [if_pos (.inr ha), ha]
    cases s.status <;> rfl
  · rw [if_congr (or_iff_left ha) rfl rfl, beq_false_of_ne ha]
    cases s.status <;> rfl

theorem State.readReg8_eq (s : State) (k : HostReg8) :
    s.readReg8 k = if s.status = .running then none else some (s.hostReg8 k) := by
  cases h : s.status <;> simp [State.readReg8, h]

theorem State.readReg16_eq (s : State) (k : HostReg16) :
    s.readReg16 k = if s.status = .running then none else some (s.hostReg16 k) := by
  cases h : s.status <;> simp [State.readReg16, h]

/-! ## What a memory move of the host answers (R24) -/

/-- R73: a byte write touches memory alone. -/
theorem State.writeByte_unchanged (s : State) (addr : Word) (v : Byte) : Unchanged [.memory] s (s.writeByte addr v) :=
  s.placeBytes_unchanged addr [v]

/-- R75: a word write touches memory alone. -/
theorem State.writeWord_unchanged (s : State) (addr v : Word) : Unchanged [.memory] s (s.writeWord addr v) :=
  (s.writeByte_unchanged addr _).trans (State.writeByte_unchanged _ _ _)

theorem State.memoryPut16Low_of_ne_top {s : State} (h : s.status ≠ .running) {addr : Word} (ha : addr ≠ 0xFFFF) (v : Word) :
    s.memoryPut16Low addr v = .next (s.writeWord addr v) := by
  rw [State.memoryPut16Low, State.hostMove_of_not_running h, beq_false_of_ne ha]

/-- R24: the high-byte-first word store is the low-byte-first store of the word with its bytes exchanged. -/
theorem State.memoryPut16_of_ne_top {s : State} (h : s.status ≠ .running) {addr : Word} (ha : addr ≠ 0xFFFF) (v : Word) :
    s.memoryPut16 addr v = .next (s.writeWord addr (joinBytes (loByte v) (hiByte v))) := by
  rw [State.memoryPut16, State.hostMove_of_not_running h, beq_false_of_ne ha, State.writeWord, hiByte_joinBytes,
    loByte_joinBytes]

theorem State.memoryPut16_top {s : State} (h : s.status ≠ .running) (v : Word) :
    s.memoryPut16 0xFFFF v = .refused .hostCallOutsideGuarantee := State.hostMove_of_not_running h _

theorem State.memoryPut16Low_top {s : State} (h : s.status ≠ .running) (v : Word) :
    s.memoryPut16Low 0xFFFF v = .refused .hostCallOutsideGuarantee := State.hostMove_of_not_running h _

theorem State.memoryLoad_within {s : State} (h : s.status ≠ .running) {addr : Word} {bytes : List Byte}
    (hfit : addr.toNat + bytes.length ≤ 65536) : s.memoryLoad addr bytes = .next (s.placeBytes addr bytes) := by
  rw [State.memoryLoad, State.hostMove_of_not_running h, decide_eq_true hfit]

theorem State.memoryLoad_past_end {s : State} (h : s.status ≠ .running) {addr : Word} {bytes : List Byte}
    (hover : 65536 < addr.toNat + bytes.length) : s.memoryLoad addr bytes = .refused .hostCallOutsideGuarantee := by
  rw [State.memoryLoad, State.hostMove_of_not_running h, decide_eq_false (Nat.not_le.mpr hover)]

/-- Bytes placed leave every byte of memory but their own. -/
theorem State.placeBytes_outside (s : State) (addr : Word) (bytes : List Byte) :
    MemoryOutside ((List.range bytes.length).map (fun k => addr + BitVec.ofNat 16 k)) s (s.placeBytes addr bytes) :=
  fun _ hout => State.readByte_placeBytes_other fun k hk heq =>
    hout (List.mem_map.mpr ⟨k, List.mem_range.mpr hk, heq.symm⟩)

/-! ## What a register move of the host answers (R24, R436, R463) -/

/-- A part found the same after all need not be listed as touched. -/
theorem Unchanged.of_cons {k : Field} {touched : List Field} {s t : State} (h : Unchanged (k :: touched) s t)
    (hk : k.same s t) : Unchanged touched s t := by
  intro j hj
  by_cases hjk : j = k
  · exact hjk ▸ hk
  · exact h j (by simp [hjk, hj])

/-- R24: an 8-bit register written holds the value, and nothing else changes. -/
theorem State.writeReg8_next {s : State} (h : s.status ≠ .running) (k : HostReg8) (v : Byte) :
    ∃ t : State, s.writeReg8 k v = .next t ∧ t.status = s.status ∧ t.hostReg8 k = v ∧ Unchanged k.fields s t := by
  refine ⟨_, State.hostMove_of_not_running h _, ?_, ?_, ?_⟩
  · cases k <;> rfl
  · cases k
    case f | fAlt => exact Flags.toByte_ofByte v
    all_goals rfl
  · intro j hj
    cases k <;> cases j <;> first
      | rfl
      | exact fun _ => rfl
      | exact absurd (by decide) hj

/-- R24, R436: a 16-bit register written holds the value; nothing else changes but the mark that PC was written. -/
theorem State.writeReg16_next {s : State} (h : s.status ≠ .running) (k : HostReg16) (v : Word) :
    ∃ t : State, s.writeReg16 k v = .next t ∧ t.hostReg16 k = v ∧
      t.status = (if k = .pc then s.status.markPcWritten else s.status) ∧ Unchanged [.status, k.field] s t := by
  refine ⟨_, State.hostMove_of_not_running h _, ?_, ?_, ?_⟩
  · cases k <;> rfl
  · cases k <;> rfl
  · intro j hj
    cases k <;> cases j <;> first
      | rfl
      | exact fun _ => rfl
      | exact absurd (by decide) hj

theorem RunStatus.markPcWritten_ne_running {st : RunStatus} (h : st ≠ .running) : st.markPcWritten ≠ .running := by
  cases st with
  | running => exact absurd rfl h
  | idle => exact h
  | faulted addr bytes w => exact nofun

/-- R463: setting the parameters touches them alone. -/
theorem State.setParams_unchanged (s : State) (p : Params) : Unchanged [.params] s { s with params := p } := by
  intro j hj
  cases j <;> first
    | rfl
    | exact fun _ => rfl
    | exact absurd (by decide) hj

/-! ## The parts of the host port's contract -/

/-- R20, R21: a run is not started during a run. -/
theorem State.startRun_of_running {s : State} (h : s.status = .running) : s.startRun = .fault .hostMoveDuringRun := by
  rw [State.startRun, h]

theorem State.hostIsShutOut_of_running {s : State} (h : s.status = .running) : s.HostIsShutOut := by
  constructor
  · intro addr v w bytes k8 k16 p
    simp only [List.forall_mem_cons]
    have hmove := State.hostMove_of_running h
    exact ⟨hmove _, hmove _, hmove _, hmove _, hmove _, hmove _, hmove _, State.startRun_of_running h,
      fun _ hmem => absurd hmem List.not_mem_nil⟩
  · intro addr k8 k16
    simp [State.memoryGet8_eq, State.memoryGet16_eq, State.memoryGet16Low_eq, State.readReg8_eq, State.readReg16_eq, h]

theorem State.hostReachesMemory_of_not_running {s : State} (h : s.status ≠ .running) : s.HostReachesMemory := by
  refine ⟨fun addr => ?_, fun addr w => ?_, fun addr v ha => ⟨?_, ?_, ?_, ?_⟩, fun v => ⟨?_, ?_, ?_, ?_⟩⟩
  · rw [State.memoryGet8_eq, if_neg h]
  · refine ⟨_, State.hostMove_of_not_running h _, ?_, s.writeByte_outside addr w, s.writeByte_unchanged addr w⟩
    rw [State.memoryGet8_eq, State.writeByte_status, if_neg h, State.readByte_writeByte_same]
  · exact ⟨_, by rw [State.memoryGet16_eq, if_neg (not_or.mpr ⟨h, ha⟩)], joinBytes_toNat _ _⟩
  · exact ⟨_, by rw [State.memoryGet16Low_eq, if_neg (not_or.mpr ⟨h, ha⟩)], s.readWord_toNat addr⟩
  · refine ⟨_, State.memoryPut16_of_ne_top h ha v, ?_, ?_, s.writeWord_outside _ _, s.writeWord_unchanged _ _⟩
    · rw [State.writeWord_low, loByte_joinBytes, hiByte_toNat]
    · rw [State.writeWord_high, hiByte_joinBytes, loByte_toNat]
  · refine ⟨_, State.memoryPut16Low_of_ne_top h ha v, ?_, ?_, s.writeWord_outside _ _, s.writeWord_unchanged _ _⟩
    · rw [State.writeWord_low, loByte_toNat]
    · rw [State.writeWord_high, hiByte_toNat]
  · rw [State.memoryGet16_eq, if_pos (.inr rfl)]
  · rw [State.memoryGet16Low_eq, if_pos (.inr rfl)]
  · exact State.memoryPut16_top h v
  · exact State.memoryPut16Low_top h v

theorem State.hostLoads_of_not_running {s : State} (h : s.status ≠ .running) : s.HostLoads := by
  intro addr bytes
  refine ⟨State.memoryLoad_past_end h, fun hfit => ?_⟩
  have hlen : bytes.length ≤ 65536 := le_trans (Nat.le_add_left _ _) hfit
  exact ⟨_, State.memoryLoad_within h hfit, State.readByte_placeBytes s addr hlen, s.placeBytes_outside addr bytes,
    s.placeBytes_unchanged addr bytes⟩

theorem State.hostReachesRegisters_of_not_running {s : State} (h : s.status ≠ .running) : s.HostReachesRegisters := by
  refine ⟨?_, ?_, fun k v => ?_, fun k v hk => ?_, fun v => ?_, fun p => ?_⟩
  · simp [State.readReg8_eq, h, State.hostReg8]
  · simp [State.readReg16_eq, h, State.hostReg16]
  · obtain ⟨t, ht, hst, hval, hframe⟩ := State.writeReg8_next h k v
    exact ⟨t, ht, by rw [State.readReg8_eq, hst, if_neg h, hval], hframe⟩
  · obtain ⟨t, ht, hval, hst, hframe⟩ := State.writeReg16_next h k v
    rw [if_neg hk] at hst
    exact ⟨t, ht, by rw [State.readReg16_eq, hst, if_neg h, hval], hframe.of_cons hst⟩
  · obtain ⟨t, ht, hval, hst, hframe⟩ := State.writeReg16_next h .pc v
    rw [if_pos rfl] at hst
    have hread : t.readReg16 .pc = some v := by
      rw [State.readReg16_eq, hst, if_neg (RunStatus.markPcWritten_ne_running h), hval]
    exact ⟨t, ht, hread, hframe.mono (by decide), fun hidle => by rw [hst, hidle]; rfl,
      fun addr bytes w hf => by rw [hst, hf]; rfl⟩
  · exact ⟨_, State.hostMove_of_not_running h _, rfl, s.setParams_unchanged p⟩

/-- R20, R436: the three starts of a run. -/
theorem State.hostStartsRuns (s : State) : s.HostStartsRuns := by
  refine ⟨fun h => ?_, fun addr bytes h => ?_, fun addr bytes h => ?_⟩ <;> rw [State.startRun, h]

/-- Settles O60: each part of the contract by its own lemma. -/
theorem hostPortContracts : Obligations.HostPortContracts := by
  intro s
  refine ⟨State.hostIsShutOut_of_running, fun h => ⟨?_, ?_, ?_, ?_⟩⟩
  · exact State.hostReachesMemory_of_not_running h
  · exact State.hostLoads_of_not_running h
  · exact State.hostReachesRegisters_of_not_running h
  · exact s.hostStartsRuns

end Sys2Proof.Machine

/-!
PROOFS of the statements of 10_state.md: reset (O13), the register views (O19), which instruction writes which register
(O16, O17), and the shadow set (O14, O15). `exec_unchanged` is the frame of every instruction at once: what it can change
is `Instr.touched`. Changes to different parts of a record commute by definition, so a frame lists them in the order the
statements use and not in the order the meaning makes them.
-/
namespace Sys2Proof.Machine

/-! ## Outside a run (R20, R434) -/

theorem step_of_not_running {s : State} (h : s.status ≠ .running) : step s = .next s := by
  unfold step
  cases hst : s.status with
  | running => exact absurd hst h
  | idle => rfl
  | faulted addr bytes w => rfl

/-- Settles O13: the reset state by evaluation, and no step outside a run. -/
theorem resetIsIdleAndIdleStays : Obligations.ResetIsIdleAndIdleStays :=
  ⟨rfl, reset_inv, rfl, fun _ => step_of_not_running⟩

/-! ## Register fields (R40 to R43) -/

/-- R41: every pair but the one written reads as before. -/
theorem State.getSS_setSS_other (s : State) {k other : RegSS} (v : Word) (h : other ≠ k) :
    (s.setSS k v).getSS other = s.getSS other := by
  cases k <;> cases other <;> first | exact absurd rfl h | rfl

/-- R42: the same of the pair field `qq`. -/
theorem State.getQQ_setQQ_other (s : State) {k other : RegQQ} (v : Word) (h : other ≠ k) :
    (s.setQQ k v).getQQ other = s.getQQ other := by
  cases k <;> cases other <;> first | exact absurd rfl h | rfl

/-- R40: a write through a register field changes the register named. -/
theorem State.setR_unchanged (s : State) (k : Reg) (v : Byte) : Unchanged [k.field] s (s.setR k v) := by
  intro j hj
  cases k <;> cases j <;> first | rfl | exact fun _ => rfl | exact absurd (by decide) hj

/-- R41: a write through a pair field changes the registers named. -/
theorem State.setSS_unchanged (s : State) (k : RegSS) (v : Word) : Unchanged k.fields s (s.setSS k v) := by
  intro j hj
  cases k <;> cases j <;> first | rfl | exact fun _ => rfl | exact absurd (by decide) hj

/-- R42: the same of the pair field `qq`. -/
theorem State.setQQ_unchanged (s : State) (k : RegQQ) (v : Word) : Unchanged k.fields s (s.setQQ k v) := by
  intro j hj
  cases k <;> cases j <;> first | rfl | exact fun _ => rfl | exact absurd (by decide) hj

/-- R37: the bits of F in its byte, read off from `Flags.ofByte_toByte`. -/
theorem Flags.toByte_bits (g : Flags) :
    g.toByte.getLsbD 7 = g.s ∧ g.toByte.getLsbD 6 = g.z ∧ g.toByte.getLsbD 5 = g.x5 ∧ g.toByte.getLsbD 4 = g.h ∧
      g.toByte.getLsbD 3 = g.x3 ∧ g.toByte.getLsbD 2 = g.pv ∧ g.toByte.getLsbD 1 = g.n ∧ g.toByte.getLsbD 0 = g.c :=
  Flags.mk.inj (Flags.ofByte_toByte g)

/-- Settles O19: pairs by the value of `joinBytes`, fields by their read, write and frame lemmas, F by its two maps. -/
theorem registerViews : Obligations.RegisterViews := by
  refine ⟨fun s => ⟨joinBytes_toNat _ _, joinBytes_toNat _ _, joinBytes_toNat _ _, joinBytes_toNat _ _⟩,
    fun s => ⟨rfl, rfl, rfl, rfl, rfl, rfl, rfl⟩, fun s => ⟨rfl, rfl, rfl, rfl⟩, fun s => ⟨rfl, rfl, rfl, rfl⟩,
    fun s => ⟨rfl, rfl, rfl, rfl⟩, fun s => ⟨rfl, rfl, rfl, rfl⟩, ?readR, ?readSS, ?readQQ,
    State.setR_unchanged, State.setSS_unchanged, State.setQQ_unchanged,
    fun g => ⟨g.ofByte_toByte, g.toByte_bits⟩, Flags.toByte_ofByte⟩
  case readR =>
    intro s k other v
    split
    · next h => rw [h, State.getR_setR_same]
    · next h => exact s.getR_setR_other v h
  case readSS =>
    intro s k other v
    split
    · next h => rw [h, State.getSS_setSS]
    · next h => exact s.getSS_setSS_other v h
  case readQQ =>
    intro s k other v
    split
    · next h => rw [h, State.getQQ_setQQ]
    · next h => exact s.getQQ_setQQ_other v h

/-! ## Conditional jumps, calls and returns (R353, R357, R358, R362, R364) -/

theorem exec_jpCC (cc : Cond) (nn : Word) (s : State) :
    exec (.jpCC cc nn) s = if s.cond cc = true then exec (.jp nn) s else .next s := by
  simp only [exec, execJpCC, execJp]
  cases s.cond cc <;> rfl

theorem exec_jrCC (cc : CondJR) (e : Byte) (s : State) :
    exec (.jrCC cc e) s = if s.condJR cc = true then exec (.jr e) s else .next s := by
  simp only [exec, execJrCC, execJr]
  cases s.condJR cc <;> rfl

theorem exec_callCC (cc : Cond) (nn : Word) (s : State) :
    exec (.callCC cc nn) s = if s.cond cc = true then exec (.call nn) s else .next s := by
  simp only [exec, execCallCC, execCall]
  cases s.cond cc <;> rfl

theorem exec_retCC (cc : Cond) (s : State) :
    exec (.retCC cc) s = if s.cond cc = true then exec .ret s else .next s := by
  simp only [exec, execRetCC, execRet]
  cases s.cond cc <;> rfl

/-- R358: B counted down, then a relative jump unless B is 0. -/
theorem exec_djnz (e : Byte) (s : State) :
    exec (.djnz e) s =
      if s.b - 1 = 0 then .next { s with b := s.b - 1 } else exec (.jr e) { s with b := s.b - 1 } := by
  simp only [exec, execDjnz]
  by_cases h : s.b - 1 = 0
  · rw [if_pos h, decide_eq_true h]
  · rw [if_neg h, decide_eq_false h]
    rfl

end Sys2Proof.Machine

/-! ## The frame of every instruction -/

namespace Sys2Proof

open Sys2Proof.Machine

/-- Every flag with a meaning but Carry. -/
def flagsButCarry : List Field := [.flagS, .flagZ, .flagH, .flagPV, .flagN]

/-- The parts of the state that the execute phase of an instruction can change, its frame: `exec_unchanged`. -/
def Instr.touched : Instr → List Field
  | .nop | .di | .ei | .im0 | .im1 | .im2 => []
  | .halt => [.status]
  | .ldIA => [.i]
  | .ldRA => [.r]
  | .ldRR rd _ | .ldRN rd _ | .ldRAtHL rd | .ldRAtIX rd _ | .ldRAtIY rd _ | .resR _ rd | .setR _ rd => [rd.field]
  | .ldAAtBC | .ldAAtDE | .ldAAtNN _ => [.a]
  | .ldAtHLR _ | .ldAtHLN _ | .ldAtIXR _ _ | .ldAtIXN _ _ | .ldAtIYR _ _ | .ldAtIYN _ _ | .ldAtBCA | .ldAtDEA | .ldAtNNA _
  | .ldAtNNHL _ | .ldAtNNSS _ _ | .ldAtNNIX _ | .ldAtNNIY _ | .resAtHL _ | .resAtIX _ _ | .resAtIY _ _ | .setAtHL _
  | .setAtIX _ _ | .setAtIY _ _ => [.memory]
  | .ldSSNN ss _ | .ldSSAtNN ss _ | .incSS ss | .decSS ss => ss.fields
  | .ldHLAtNN _ => [.h, .l]
  | .ldIXNN _ | .ldIXAtNN _ | .incIX | .decIX => [.ix]
  | .ldIYNN _ | .ldIYAtNN _ | .incIY | .decIY => [.iy]
  | .ldSPHL | .ldSPIX | .ldSPIY => [.sp]
  | .pushQQ _ | .pushIX | .pushIY => [.sp, .memory]
  | .popQQ qq => .sp :: qq.fields
  | .popIX => [.sp, .ix]
  | .popIY => [.sp, .iy]
  | .jp _ | .jpCC _ _ | .jpHL | .jpIX | .jpIY | .jr _ | .jrCC _ _ => [.pc]
  | .djnz _ => [.b, .pc]
  | .call _ | .callCC _ _ | .rst _ => [.pc, .sp, .memory]
  | .ret | .retCC _ | .reti | .retn => [.pc, .sp]
  | .exAFAF => .a :: .aAlt :: .fAlt :: allFlags
  | .exx => [.b, .c, .d, .e, .h, .l, .bAlt, .cAlt, .dAlt, .eAlt, .hAlt, .lAlt]
  | .exDEHL => [.d, .e, .h, .l]
  | .exAtSPHL => [.h, .l, .memory]
  | .exAtSPIX => [.ix, .memory]
  | .exAtSPIY => [.iy, .memory]
  | .addAR _ | .addAN _ | .addAAtHL | .addAAtIX _ | .addAAtIY _ | .adcAR _ | .adcAN _ | .adcAAtHL | .adcAAtIX _ | .adcAAtIY _
  | .subR _ | .subN _ | .subAtHL | .subAtIX _ | .subAtIY _ | .sbcAR _ | .sbcAN _ | .sbcAAtHL | .sbcAAtIX _ | .sbcAAtIY _
  | .andR _ | .andN _ | .andAtHL | .andAtIX _ | .andAtIY _ | .xorR _ | .xorN _ | .xorAtHL | .xorAtIX _ | .xorAtIY _
  | .orR _ | .orN _ | .orAtHL | .orAtIX _ | .orAtIY _ | .neg => withUnspecified (.a :: sixFlags)
  | .cpR _ | .cpN _ | .cpAtHL | .cpAtIX _ | .cpAtIY _ => withUnspecified sixFlags
  | .incR rd | .decR rd => withUnspecified (rd.field :: flagsButCarry)
  | .incAtHL | .incAtIX _ | .incAtIY _ | .decAtHL | .decAtIX _ | .decAtIY _ => withUnspecified (.memory :: flagsButCarry)
  | .ldAI | .ldAR => withUnspecified (.a :: flagsButCarry)
  | .rrd | .rld => withUnspecified (.a :: .memory :: flagsButCarry)
  | .bitR _ _ | .bitAtHL _ | .bitAtIX _ _ | .bitAtIY _ _ => withUnspecified flagsButCarry
  | .rlca | .rrca | .rla | .rra => withUnspecified [.a, .flagH, .flagN, .flagC]
  | .rlcR rd | .rrcR rd | .rlR rd | .rrR rd | .slaR rd | .sraR rd | .srlR rd => withUnspecified (rd.field :: sixFlags)
  | .rlcAtHL | .rrcAtHL | .rlAtHL | .rrAtHL | .slaAtHL | .sraAtHL | .srlAtHL | .rlcAtIX _ | .rrcAtIX _ | .rlAtIX _ | .rrAtIX _
  | .slaAtIX _ | .sraAtIX _ | .srlAtIX _ | .rlcAtIY _ | .rrcAtIY _ | .rlAtIY _ | .rrAtIY _ | .slaAtIY _ | .sraAtIY _
  | .srlAtIY _ => withUnspecified (.memory :: sixFlags)
  | .addHLSS _ => withUnspecified [.h, .l, .flagH, .flagN, .flagC]
  | .addIXPP _ => withUnspecified [.ix, .flagH, .flagN, .flagC]
  | .addIYRR _ => withUnspecified [.iy, .flagH, .flagN, .flagC]
  | .adcHLSS _ | .sbcHLSS _ => withUnspecified (.h :: .l :: sixFlags)
  | .daa => withUnspecified [.a, .flagS, .flagZ, .flagH, .flagPV, .flagC]
  | .cpl => withUnspecified [.a, .flagH, .flagN]
  | .scf | .ccf => withUnspecified [.flagH, .flagN, .flagC]
  | .ldi | .ldd | .ldir | .lddr => withUnspecified [.b, .c, .d, .e, .h, .l, .memory, .flagH, .flagPV, .flagN]
  | .cpi | .cpd | .cpir | .cpdr => withUnspecified (.b :: .c :: .h :: .l :: sixFlags)
  | .inAAtN _ => [.a, .ioTrace]
  | .outAtNA _ | .outAtCR _ => [.ioTrace]
  | .inRAtC rd => withUnspecified (.ioTrace :: rd.field :: flagsButCarry)
  | .ini | .ind | .inir | .indr => withUnspecified (.b :: .h :: .l :: .memory :: .ioTrace :: flagsButCarry)
  | .outi | .outd | .otir | .otdr => withUnspecified (.b :: .h :: .l :: .ioTrace :: flagsButCarry)

end Sys2Proof

namespace Sys2Proof.Machine

/-! ### Frames of the shared operations -/

/-- Two changes one after the other touch what each touches. -/
theorem Unchanged.append {first second : List Field} {s t u : State} (hst : Unchanged first s t)
    (htu : Unchanged second t u) : Unchanged (first ++ second) s u :=
  (hst.mono fun _ => List.mem_append_left second).trans (htu.mono fun _ => List.mem_append_right first)

/-- R231: a loop touches what its body touches. -/
theorem Unchanged.repeatUntil {touched : List Field} {body : State → State} (hbody : ∀ s, Unchanged touched s (body s))
    (stop : State → Bool) (fuel : Nat) (s : State) : Unchanged touched s (repeatUntil body stop fuel s) :=
  repeatUntil_invariant stop (fun u hu => hu.trans (hbody u)) fuel (Unchanged.refl touched s)

theorem State.setIX_unchanged (s : State) (v : Word) : Unchanged [.ix] s { s with ix := v } := by
  intro k hk
  cases k <;> first | rfl | exact fun _ => rfl | exact absurd (by decide) hk

theorem State.setIY_unchanged (s : State) (v : Word) : Unchanged [.iy] s { s with iy := v } := by
  intro k hk
  cases k <;> first | rfl | exact fun _ => rfl | exact absurd (by decide) hk

theorem State.setPC_unchanged (s : State) (v : Word) : Unchanged [.pc] s { s with pc := v } := by
  intro k hk
  cases k <;> first | rfl | exact fun _ => rfl | exact absurd (by decide) hk

theorem State.setTrace_unchanged (s : State) (v : List IoEvent) : Unchanged [.ioTrace] s { s with ioTrace := v } := by
  intro k hk
  cases k <;> first | rfl | exact fun _ => rfl | exact absurd (by decide) hk

theorem State.push16_unchanged (s : State) (v : Word) : Unchanged [.sp, .memory] s (s.push16 v) :=
  (s.setSS_unchanged .sp _).append ((State.writeByte_unchanged _ _ _).trans (State.writeByte_unchanged _ _ _))

/-- R37: an instruction that writes flags touches those of the six that get another value, and what it leaves
unspecified. -/
theorem State.writeFlags_frame {s : State} {g : Flags} (touched : List Field)
    (hkept : ∀ flag ∈ sixFlags, flag ∉ touched → flag.same s { s with f := g }) (extra : Nat) :
    Unchanged (withUnspecified touched) s (s.writeFlags extra g) := by
  intro k hk
  simp only [withUnspecified, List.mem_append, not_or] at hk
  obtain ⟨htouched, hfree⟩ := hk
  by_cases hsix : k ∈ sixFlags
  · have hsame := hkept k hsix htouched
    cases k <;> first | exact hsame | exact absurd hsix (by decide)
  · refine s.writeFlags_unchanged extra g k fun hmem => ?_
    cases k <;> first | exact hsix (by decide) | exact hfree (by decide) | exact absurd hmem (by decide)

/-- Flags written after another change. -/
theorem Unchanged.thenFlags {first touched : List Field} {s t u : State} (hst : Unchanged first s t)
    (htu : Unchanged (withUnspecified touched) t u) : Unchanged (withUnspecified (first ++ touched)) s u := by
  rw [withUnspecified, List.append_assoc]
  exact hst.append htu

theorem State.writeFlags_sixFlags (s : State) (extra : Nat) (g : Flags) :
    Unchanged (withUnspecified sixFlags) s (s.writeFlags extra g) :=
  State.writeFlags_frame sixFlags (fun _ hmem hnot => absurd hmem hnot) extra

theorem State.writeFlags_keepsCarry {s : State} {g : Flags} (extra : Nat) (hc : g.c = s.f.c) :
    Unchanged (withUnspecified flagsButCarry) s (s.writeFlags extra g) :=
  State.writeFlags_frame flagsButCarry (by simp [sixFlags, flagsButCarry, Field.same, hc]) extra

theorem State.writeFlags_keepsSZP {s : State} {g : Flags} (extra : Nat) (hs : g.s = s.f.s) (hz : g.z = s.f.z)
    (hpv : g.pv = s.f.pv) : Unchanged (withUnspecified [.flagH, .flagN, .flagC]) s (s.writeFlags extra g) :=
  State.writeFlags_frame _ (by simp [sixFlags, Field.same, hs, hz, hpv]) extra

theorem State.transferFlags_unchanged (s : State) :
    Unchanged (withUnspecified [.flagH, .flagPV, .flagN]) s s.transferFlags :=
  State.writeFlags_frame _ (by simp [sixFlags, Field.same]) 0

theorem State.transferOnce_unchanged (step : Word) (s : State) :
    Unchanged [.b, .c, .d, .e, .h, .l, .memory] s (s.transferOnce step) :=
  (s.setSS_unchanged .bc (s.bc - 1)).append ((State.setSS_unchanged _ .de (s.de + step)).append
    ((State.setSS_unchanged _ .hl (s.hl + step)).append (State.writeByte_unchanged _ s.de (s.readByte s.hl))))

theorem State.compareOnce_unchanged (step : Word) (s : State) :
    Unchanged (withUnspecified (.b :: .c :: .h :: .l :: sixFlags)) s (s.compareOnce step) :=
  ((s.setSS_unchanged .bc (s.bc - 1)).append (State.setSS_unchanged _ .hl (s.hl + step))).thenFlags
    (State.writeFlags_sixFlags _ _ _)

theorem State.inputOnce_unchanged (step : Word) (s : State) :
    Unchanged [.b, .h, .l, .memory, .ioTrace] s (s.inputOnce step) :=
  (s.setR_unchanged .b (s.b - 1)).append ((State.setSS_unchanged _ .hl (s.hl + step)).append
    ((State.writeByte_unchanged _ s.hl (s.portValue s.c)).append (State.setTrace_unchanged _ _)))

theorem State.outputOnce_unchanged (step : Word) (s : State) :
    Unchanged [.b, .h, .l, .ioTrace] s (s.outputOnce step) :=
  (s.setR_unchanged .b (s.b - 1)).append ((State.setSS_unchanged _ .hl (s.hl + step)).append
    (State.setTrace_unchanged _ _))

theorem State.callTo_unchanged (s : State) (target : Word) : Unchanged [.pc, .sp, .memory] s (s.callTo target) :=
  (s.setPC_unchanged target).append (State.push16_unchanged _ s.pc)

theorem State.popPC_unchanged (s : State) : Unchanged [.pc, .sp] s s.popPC :=
  (s.setPC_unchanged s.popValue).append (State.setSS_unchanged _ .sp (s.sp + 2))

theorem State.digitRotate_unchanged (s : State) (newMem newA : Byte) :
    Unchanged (withUnspecified (.a :: .memory :: flagsButCarry)) s (s.digitRotate newMem newA) :=
  ((s.setR_unchanged .a newA).append (State.writeByte_unchanged _ s.hl newMem)).thenFlags (State.writeFlags_keepsCarry 0 rfl)

/-! ### Frames of the instructions -/

/-- A next state that an outcome answers has the property. -/
def NextHas (p : State → Prop) : Result → Prop
  | .next t => p t
  | .fault _ => True
  | .refused _ => True

theorem nextHas_iff {p : State → Prop} {o : Result} : NextHas p o ↔ ∀ t, o = .next t → p t := by
  cases o <;> simp [NextHas]

theorem nextHas_ite {p : State → Prop} {c : Prop} [Decidable c] {o o' : Result} (h : NextHas p o) (h' : NextHas p o') :
    NextHas p (if c then o else o') := by
  split
  · exact h
  · exact h'

/-- R76: of a word access that is refused there is nothing to show. -/
theorem State.afterWordAccess_nextHas {p : State → Prop} {s t : State} (addr : Word) (h : p t) :
    NextHas p (s.afterWordAccess addr t) :=
  nextHas_iff.mpr fun _ ht => State.afterWordAccess_next ht ▸ h

/-- Instruction by instruction, each as the shared operations it is made of. -/
theorem exec_nextHas_unchanged (i : Instr) (s : State) : NextHas (Unchanged i.touched s) (exec i s) := by
  cases i
  case nop | di | ei | im0 | im1 | im2 => exact Unchanged.refl _ s
  case halt | ldIA | ldRA | exAFAF | exx =>
    intro k hk
    cases k <;> first | rfl | exact fun _ => rfl | exact absurd (by decide) hk
  -- loads and stores
  case ldRR | ldRN | ldRAtHL | ldRAtIX | ldRAtIY | resR | setR => exact s.setR_unchanged _ _
  case ldAAtBC | ldAAtDE | ldAAtNN => exact s.setR_unchanged .a _
  case ldAtHLR | ldAtHLN | ldAtIXR | ldAtIXN | ldAtIYR | ldAtIYN | ldAtBCA | ldAtDEA | ldAtNNA | resAtHL | resAtIX | resAtIY
      | setAtHL | setAtIX | setAtIY =>
    exact s.writeByte_unchanged _ _
  case ldAtNNHL | ldAtNNSS | ldAtNNIX | ldAtNNIY => exact State.afterWordAccess_nextHas _ (s.writeWord_unchanged _ _)
  case ldSSNN | incSS | decSS => exact s.setSS_unchanged _ _
  case ldSSAtNN => exact State.afterWordAccess_nextHas _ (s.setSS_unchanged _ _)
  case ldHLAtNN => exact State.afterWordAccess_nextHas _ (s.setSS_unchanged .hl _)
  case ldIXNN | incIX | decIX => exact s.setIX_unchanged _
  case ldIXAtNN => exact State.afterWordAccess_nextHas _ (s.setIX_unchanged _)
  case ldIYNN | incIY | decIY => exact s.setIY_unchanged _
  case ldIYAtNN => exact State.afterWordAccess_nextHas _ (s.setIY_unchanged _)
  case ldSPHL | ldSPIX | ldSPIY => exact s.setSS_unchanged .sp _
  case pushQQ | pushIX | pushIY => exact State.afterWordAccess_nextHas _ (s.push16_unchanged _)
  case popQQ =>
    exact State.afterWordAccess_nextHas _ ((s.setSS_unchanged .sp _).append (State.setQQ_unchanged _ _ _))
  case popIX => exact State.afterWordAccess_nextHas _ ((s.setSS_unchanged .sp _).append (State.setIX_unchanged _ _))
  case popIY => exact State.afterWordAccess_nextHas _ ((s.setSS_unchanged .sp _).append (State.setIY_unchanged _ _))
  case exDEHL => exact (s.setSS_unchanged .de _).append (State.setSS_unchanged _ .hl _)
  case exAtSPHL =>
    exact State.afterWordAccess_nextHas _
      ((s.setSS_unchanged .hl (s.readWord s.sp)).append (State.writeWord_unchanged _ s.sp s.hl))
  case exAtSPIX =>
    exact State.afterWordAccess_nextHas _
      ((s.setIX_unchanged (s.readWord s.sp)).append (State.writeWord_unchanged _ s.sp s.ix))
  case exAtSPIY =>
    exact State.afterWordAccess_nextHas _
      ((s.setIY_unchanged (s.readWord s.sp)).append (State.writeWord_unchanged _ s.sp s.iy))
  -- jumps, calls, returns
  case jp | jpHL | jpIX | jpIY | jr => exact s.setPC_unchanged _
  case jpCC cc nn =>
    rw [exec_jpCC]
    exact nextHas_ite (s.setPC_unchanged _) (Unchanged.refl _ s)
  case jrCC cc e =>
    rw [exec_jrCC]
    exact nextHas_ite (s.setPC_unchanged _) (Unchanged.refl _ s)
  case djnz e =>
    rw [exec_djnz]
    exact nextHas_ite ((s.setR_unchanged .b _).mono fun _ => List.mem_append_left [Field.pc])
      ((s.setR_unchanged .b _).append (State.setPC_unchanged _ _))
  case call | rst => exact State.afterWordAccess_nextHas _ (s.callTo_unchanged _)
  case callCC cc nn =>
    rw [exec_callCC]
    exact nextHas_ite (State.afterWordAccess_nextHas _ (s.callTo_unchanged _)) (Unchanged.refl _ s)
  case ret | reti | retn => exact State.afterWordAccess_nextHas _ s.popPC_unchanged
  case retCC cc =>
    rw [exec_retCC]
    exact nextHas_ite (State.afterWordAccess_nextHas _ s.popPC_unchanged) (Unchanged.refl _ s)
  -- arithmetic and logic
  case addAR | addAN | addAAtHL | addAAtIX | addAAtIY | adcAR | adcAN | adcAAtHL | adcAAtIX | adcAAtIY | subR | subN | subAtHL
      | subAtIX | subAtIY | sbcAR | sbcAN | sbcAAtHL | sbcAAtIX | sbcAAtIY | andR | andN | andAtHL | andAtIX | andAtIY
      | xorR | xorN | xorAtHL | xorAtIX | xorAtIY | orR | orN | orAtHL | orAtIX | orAtIY | neg =>
    exact (s.setR_unchanged .a _).thenFlags (State.writeFlags_sixFlags _ _ _)
  case cpR | cpN | cpAtHL | cpAtIX | cpAtIY => exact State.writeFlags_sixFlags _ _ _
  case incR | decR => exact (s.setR_unchanged _ _).thenFlags (State.writeFlags_keepsCarry _ rfl)
  case incAtHL | incAtIX | incAtIY | decAtHL | decAtIX | decAtIY =>
    exact (s.writeByte_unchanged _ _).thenFlags (State.writeFlags_keepsCarry _ rfl)
  case addHLSS => exact (s.setSS_unchanged .hl _).thenFlags (State.writeFlags_keepsSZP _ rfl rfl rfl)
  case addIXPP => exact (s.setIX_unchanged _).thenFlags (State.writeFlags_keepsSZP _ rfl rfl rfl)
  case addIYRR => exact (s.setIY_unchanged _).thenFlags (State.writeFlags_keepsSZP _ rfl rfl rfl)
  case adcHLSS | sbcHLSS => exact (s.setSS_unchanged .hl _).thenFlags (State.writeFlags_sixFlags _ _ _)
  case ldAI | ldAR => exact (s.setR_unchanged .a _).thenFlags (State.writeFlags_keepsCarry _ rfl)
  case scf | ccf => exact State.writeFlags_keepsSZP _ rfl rfl rfl
  case daa | cpl =>
    exact (s.setR_unchanged .a _).thenFlags (State.writeFlags_frame _ (by simp [sixFlags, Field.same]) _)
  -- rotates, shifts, bits
  case rlca | rrca | rla | rra => exact (s.setR_unchanged .a _).thenFlags (State.writeFlags_keepsSZP _ rfl rfl rfl)
  case rlcR | rrcR | rlR | rrR | slaR | sraR | srlR => exact (s.setR_unchanged _ _).thenFlags (State.writeFlags_sixFlags _ _ _)
  case rlcAtHL | rrcAtHL | rlAtHL | rrAtHL | slaAtHL | sraAtHL | srlAtHL | rlcAtIX | rrcAtIX | rlAtIX | rrAtIX | slaAtIX
      | sraAtIX | srlAtIX | rlcAtIY | rrcAtIY | rlAtIY | rrAtIY | slaAtIY | sraAtIY | srlAtIY =>
    exact (s.writeByte_unchanged _ _).thenFlags (State.writeFlags_sixFlags _ _ _)
  case rrd | rld =>
    exact s.digitRotate_unchanged _ _
  case bitR | bitAtHL | bitAtIX | bitAtIY => exact State.writeFlags_keepsCarry _ rfl
  -- block transfers and compares
  case ldi | ldd => exact (s.transferOnce_unchanged _).thenFlags (State.transferFlags_unchanged _)
  case ldir | lddr =>
    exact (Unchanged.repeatUntil (State.transferOnce_unchanged _) _ _ s).thenFlags (State.transferFlags_unchanged _)
  case cpi | cpd => exact s.compareOnce_unchanged _
  case cpir | cpdr => exact Unchanged.repeatUntil (State.compareOnce_unchanged _) _ _ s
  -- ports
  case inAAtN =>
    exact (s.setR_unchanged .a _).append (State.setTrace_unchanged _ _)
  case outAtNA | outAtCR => exact s.setTrace_unchanged _
  case inRAtC =>
    exact ((s.setTrace_unchanged _).append (State.setR_unchanged _ _ _)).thenFlags (State.writeFlags_keepsCarry _ rfl)
  case ini | ind => exact (s.inputOnce_unchanged _).thenFlags (State.writeFlags_keepsCarry _ rfl)
  case outi | outd => exact (s.outputOnce_unchanged _).thenFlags (State.writeFlags_keepsCarry _ rfl)
  case inir | indr =>
    exact (Unchanged.repeatUntil (State.inputOnce_unchanged _) _ _ s).thenFlags (State.writeFlags_keepsCarry _ rfl)
  case otir | otdr =>
    exact (Unchanged.repeatUntil (State.outputOnce_unchanged _) _ _ s).thenFlags (State.writeFlags_keepsCarry _ rfl)

/-- The frame of every instruction: a next state that its execute phase answers differs in `Instr.touched` alone. -/
theorem exec_unchanged {i : Instr} {s t : State} (h : exec i s = .next t) : Unchanged i.touched s t :=
  nextHas_iff.mp (exec_nextHas_unchanged i s) t h

end Sys2Proof.Machine

/-! ## Who writes SP, IX, IY, PC, I, R and the run status (R34 to R39, R396) -/

namespace Sys2Proof

open Sys2Proof.Machine

/-- The registers that are no operand of 8-bit arithmetic, and the run status. -/
def controlFields : List Field := [.ix, .iy, .sp, .pc, .i, .r, .status]

/-- Which of `controlFields` the execute phase of an instruction can change: `Instr.touched_control`. -/
def Instr.control : Instr → List Field
  | .halt => [.status]
  | .ldIA => [.i]
  | .ldRA => [.r]
  | .jp _ | .jpCC _ _ | .jpHL | .jpIX | .jpIY | .jr _ | .jrCC _ _ | .djnz _ => [.pc]
  | .call _ | .callCC _ _ | .rst _ | .ret | .retCC _ | .reti | .retn => [.pc, .sp]
  | .ldSSNN .sp _ | .ldSSAtNN .sp _ | .incSS .sp | .decSS .sp | .ldSPHL | .ldSPIX | .ldSPIY | .pushQQ _ | .pushIX | .pushIY
  | .popQQ _ => [.sp]
  | .popIX => [.sp, .ix]
  | .popIY => [.sp, .iy]
  | .ldIXNN _ | .ldIXAtNN _ | .incIX | .decIX | .addIXPP _ | .exAtSPIX => [.ix]
  | .ldIYNN _ | .ldIYAtNN _ | .incIY | .decIY | .addIYRR _ | .exAtSPIY => [.iy]
  | _ => []

theorem Instr.touched_control (i : Instr) : i.touched.filter (· ∈ controlFields) = i.control := by
  cases i
  case ldRR r _ | ldRN r _ | ldRAtHL r | ldRAtIX r _ | ldRAtIY r _ | incR r | decR r | rlcR r | rrcR r | rlR r | rrR r
      | slaR r | sraR r | srlR r | resR _ r | setR _ r | inRAtC r | ldSSNN r _ | ldSSAtNN r _ | incSS r | decSS r | popQQ r =>
    cases r <;> rfl
  all_goals rfl

theorem Instr.eq_ldIA_of_control {i : Instr} (h : i.control.elem .i = true) : i = .ldIA := by
  cases i
  case ldIA => rfl
  case ldSSNN ss _ | ldSSAtNN ss _ | incSS ss | decSS ss => cases ss <;> nomatch h
  all_goals nomatch h

theorem Instr.eq_ldRA_of_control {i : Instr} (h : i.control.elem .r = true) : i = .ldRA := by
  cases i
  case ldRA => rfl
  case ldSSNN ss _ | ldSSAtNN ss _ | incSS ss | decSS ss => cases ss <;> nomatch h
  all_goals nomatch h

theorem Instr.eq_halt_of_control {i : Instr} (h : i.control.elem .status = true) : i = .halt := by
  cases i
  case halt => rfl
  case ldSSNN ss _ | ldSSAtNN ss _ | incSS ss | decSS ss => cases ss <;> nomatch h
  all_goals nomatch h

theorem Instr.encode_head_of_control_ix {i : Instr} (h : i.control.elem .ix = true) : (encode i).head? = some 0xDD := by
  cases i
  case ldIXNN | ldIXAtNN | incIX | decIX | addIXPP | popIX | exAtSPIX => rfl
  case ldSSNN ss _ | ldSSAtNN ss _ | incSS ss | decSS ss => cases ss <;> nomatch h
  all_goals nomatch h

theorem Instr.encode_head_of_control_iy {i : Instr} (h : i.control.elem .iy = true) : (encode i).head? = some 0xFD := by
  cases i
  case ldIYNN | ldIYAtNN | incIY | decIY | addIYRR | popIY | exAtSPIY => rfl
  case ldSSNN ss _ | ldSSAtNN ss _ | incSS ss | decSS ss => cases ss <;> nomatch h
  all_goals nomatch h

end Sys2Proof

namespace Sys2Proof.Machine

/-- A register of `controlFields` that the execute phase changed is one the instruction can change. -/
theorem exec_control {i : Instr} {s t : State} (h : exec i s = .next t) {k : Field} (hk : k ∈ controlFields)
    (hchanged : ¬ k.same s t) : i.control.elem k = true := by
  by_contra hnot
  refine hchanged (exec_unchanged h k fun hmem => hnot (List.elem_iff.mpr ?_))
  rw [← i.touched_control]
  exact List.mem_filter.mpr ⟨hmem, decide_eq_true hk⟩

/-- Settles O16: the instructions whose `Instr.control` lists the register. -/
theorem writersOfPcStatusIAndR : Obligations.WritersOfPcStatusIAndR := by
  intro i s t h
  refine ⟨fun hi => ?I, fun hr => ?R, fun hpc => ?PC, fun hst => ?status⟩
  case I => exact Instr.eq_ldIA_of_control (exec_control h (k := .i) (by decide) hi)
  case R => exact Instr.eq_ldRA_of_control (exec_control h (k := .r) (by decide) hr)
  case status => exact Instr.eq_halt_of_control (exec_control h (k := .status) (by decide) hst)
  case PC =>
    have hctl : i.control.elem .pc = true := exec_control h (by decide) hpc
    clear h hpc
    cases i
    case jp | jpCC | jpHL | jpIX | jpIY | jr | jrCC | djnz | call | callCC | ret | retCC | rst | reti | retn => simp
    case ldSSNN ss _ | ldSSAtNN ss _ | incSS ss | decSS ss => cases ss <;> nomatch hctl
    all_goals nomatch hctl

/-- Settles O17: the same for SP; the writers of IX and IY by the first byte of their encoding. -/
theorem writersOfSpIxIy : Obligations.WritersOfSpIxIy := by
  intro i s t h
  refine ⟨fun hsp => ?SP, fun hix => ?IX, fun hiy => ?IY⟩
  case IX => exact Instr.encode_head_of_control_ix (exec_control h (k := .ix) (by decide) hix)
  case IY => exact Instr.encode_head_of_control_iy (exec_control h (k := .iy) (by decide) hiy)
  case SP =>
    have hctl : i.control.elem .sp = true := exec_control h (by decide) hsp
    clear h hsp
    cases i
    case ldSPHL | ldSPIX | ldSPIY | pushQQ | popQQ | pushIX | pushIY | popIX | popIY | call | callCC | ret | retCC | rst | reti
        | retn =>
      simp
    case ldSSNN ss _ | ldSSAtNN ss _ | incSS ss | decSS ss =>
      cases ss
      case sp => simp
      all_goals nomatch hctl
    all_goals nomatch hctl

/-! ## The shadow set is not read (R33) -/

theorem State.b_withShadowOf (s from_ : State) : (s.withShadowOf from_).b = s.b := rfl

theorem State.cond_withShadowOf (s from_ : State) (cc : Cond) : (s.withShadowOf from_).cond cc = s.cond cc := rfl

theorem State.condJR_withShadowOf (s from_ : State) (cc : CondJR) : (s.withShadowOf from_).condJR cc = s.condJR cc := rfl

theorem State.afterWordAccess_withShadowOf {s from_ t t' : State} {addr : Word} (ht : t' = t.withShadowOf from_) :
    (s.withShadowOf from_).afterWordAccess addr t' = mapNext (fun u => u.withShadowOf from_) (s.afterWordAccess addr t) := by
  rcases s.afterWordAccess_cases addr t with ⟨ha, hs⟩ | ⟨ha, hs⟩ <;> rw [hs, ht]
  · exact State.afterWordAccess_of_allowed _ ha
  · exact State.afterWordAccess_of_not_allowed _ ha

/-- R231: a repeating instruction whose body, test and final flags do not read the shadow set does not read it. -/
theorem next_repeatUntil_withShadowOf {body : State → State} {stop : State → Bool} (finish : State → State)
    {s from_ : State} {fuel : Nat} (hbody : ∀ u : State, body (u.withShadowOf from_) = (body u).withShadowOf from_)
    (hstop : ∀ u : State, stop (u.withShadowOf from_) = stop u)
    (hfinish : ∀ u : State, finish (u.withShadowOf from_) = (finish u).withShadowOf from_) :
    (.next (finish (repeatUntil body stop fuel (s.withShadowOf from_))) : Result) =
      mapNext (fun u => u.withShadowOf from_) (.next (finish (repeatUntil body stop fuel s))) := by
  refine congrArg Host.Outcome.next (.trans (congrArg finish ?_) (hfinish _))
  induction fuel generalizing s with
  | zero => rfl
  | succ fuel ih =>
    simp only [repeatUntil, hbody, hstop, ih]
    cases stop (body s) <;> rfl

/-- R33: instruction by instruction. Where nothing is matched on, the two sides are the same by definition. -/
theorem exec_withShadowOf {i : Instr} (s from_ : State) (haf : i ≠ .exAFAF) (hexx : i ≠ .exx) :
    exec i (s.withShadowOf from_) = mapNext (fun t => t.withShadowOf from_) (exec i s) := by
  cases i
  case exAFAF => exact absurd rfl haf
  case exx => exact absurd rfl hexx
  -- a register or a pair is written through a field
  case ldRR r _ | ldRN r _ | ldRAtHL r | ldRAtIX r _ | ldRAtIY r _ | incR r | decR r | rlcR r | rrcR r | rlR r | rrR r
      | slaR r | sraR r | srlR r | resR _ r | setR _ r | inRAtC r | ldSSNN r _ | incSS r | decSS r =>
    cases r <;> rfl
  -- a word of memory is accessed
  case ldHLAtNN | ldAtNNHL | ldAtNNSS | ldIXAtNN | ldAtNNIX | ldIYAtNN | ldAtNNIY | pushQQ | pushIX | pushIY | popIX | popIY
      | call | rst | ret | reti | retn | exAtSPHL | exAtSPIX | exAtSPIY =>
    exact State.afterWordAccess_withShadowOf rfl
  case ldSSAtNN r _ | popQQ r => cases r <;> exact State.afterWordAccess_withShadowOf rfl
  -- a condition is tested
  case jpCC cc nn =>
    rw [exec_jpCC, exec_jpCC, s.cond_withShadowOf]
    split <;> rfl
  case jrCC cc e =>
    rw [exec_jrCC, exec_jrCC, s.condJR_withShadowOf]
    split <;> rfl
  case djnz e =>
    rw [exec_djnz, exec_djnz, s.b_withShadowOf]
    split <;> rfl
  case callCC cc nn =>
    rw [exec_callCC, exec_callCC, s.cond_withShadowOf]
    split
    · exact State.afterWordAccess_withShadowOf rfl
    · rfl
  case retCC cc =>
    rw [exec_retCC, exec_retCC, s.cond_withShadowOf]
    split
    · exact State.afterWordAccess_withShadowOf rfl
    · rfl
  -- a loop is run
  case ldir | lddr =>
    exact next_repeatUntil_withShadowOf State.transferFlags (fun _ => rfl) (fun _ => rfl) (fun _ => rfl)
  case cpir | cpdr => exact next_repeatUntil_withShadowOf id (fun _ => rfl) (fun _ => rfl) (fun _ => rfl)
  case inir | indr | otir | otdr =>
    exact next_repeatUntil_withShadowOf State.blockIoFlags (fun _ => rfl) (fun _ => rfl) (fun _ => rfl)
  all_goals rfl

/-- Settles O15: `exec` commutes with a change of the shadow set. -/
theorem shadowSetNeverRead : Obligations.ShadowSetNeverRead :=
  fun _ s from_ haf hexx => exec_withShadowOf s from_ haf hexx

/-! ## The shadow set is swapped and not otherwise written (R33, R382, R383) -/

/-- An instruction that does not read the shadow set does not write it: given its own shadow set, a state is itself. -/
theorem exec_keeps_shadowSet {i : Instr} {s t : State} (h : exec i s = .next t) (haf : i ≠ .exAFAF) (hexx : i ≠ .exx) :
    t = t.withShadowOf s := by
  have hself : exec i s = mapNext (fun u => u.withShadowOf s) (exec i s) := exec_withShadowOf s s haf hexx
  rw [h] at hself
  exact Host.Outcome.next.inj hself

theorem State.same_withShadowOf (t s : State) : ∀ k ∈ shadowSet, k.same s (t.withShadowOf s) := by
  simp [shadowSet, Field.same, State.withShadowOf]

/-- Settles O14: an instruction that does not read the shadow set keeps it; the two exchanges by their meaning and frame. -/
theorem shadowSetOnlySwapped : Obligations.ShadowSetOnlySwapped := by
  refine ⟨fun i s t h haf hexx => ?_,
    fun s => ⟨_, rfl, rfl, rfl, rfl, rfl, exec_unchanged (i := .exAFAF) rfl⟩,
    fun s => ⟨_, rfl, rfl, rfl, rfl, rfl, rfl, rfl, rfl, rfl, rfl, rfl, rfl, rfl, exec_unchanged (i := .exx) rfl⟩⟩
  rw [exec_keeps_shadowSet h haf hexx]
  exact t.same_withShadowOf s

end Sys2Proof.Machine

/-!
PROOFS of the statements of 20_memory.md: the memory's canonical form (O12) and the refused word accesses (O30).
`exec_keeps_inv` is the preservation of the form by the execute phase of every instruction; `exec_of_wordAccess` ties the
list `wordAccess` of word accesses to the refusals that `exec` makes.
-/
namespace Sys2Proof.Machine

/-! ## The canonical form through the shared operations (R71, R73, log 3) -/

theorem State.setR_inv {s : State} (h : s.Inv) (k : Reg) (v : Byte) : (s.setR k v).Inv :=
  State.inv_of_mem_eq h (s.setR_mem k v)

theorem State.setSS_inv {s : State} (h : s.Inv) (k : RegSS) (v : Word) : (s.setSS k v).Inv :=
  State.inv_of_mem_eq h (s.setSS_mem k v)

theorem State.setQQ_inv {s : State} (h : s.Inv) (k : RegQQ) (v : Word) : (s.setQQ k v).Inv :=
  State.inv_of_mem_eq h (s.setQQ_mem k v)

theorem State.writeFlags_inv {s : State} (h : s.Inv) (extra : Nat) (g : Flags) : (s.writeFlags extra g).Inv := h

theorem State.callTo_inv {s : State} (h : s.Inv) (target : Word) : (s.callTo target).Inv := State.push16_inv h s.pc

theorem State.transferOnce_inv (step : Word) (s : State) (h : s.Inv) : (s.transferOnce step).Inv :=
  State.writeByte_inv h s.de (s.readByte s.hl)

theorem State.compareOnce_inv (step : Word) (s : State) (h : s.Inv) : (s.compareOnce step).Inv :=
  State.inv_of_mem_eq h (s.compareOnce_mem step)

theorem State.outputOnce_inv (step : Word) (s : State) (h : s.Inv) : (s.outputOnce step).Inv :=
  State.inv_of_mem_eq h (s.outputOnce_mem step)

theorem State.inputOnce_inv (step : Word) (s : State) (h : s.Inv) : (s.inputOnce step).Inv :=
  State.writeByte_inv (s := s.recordIn s.c) h s.hl (s.portValue s.c)

/-- R231: a loop keeps the form that its body keeps. -/
theorem repeatUntil_inv {body : State → State} (hbody : ∀ u : State, u.Inv → (body u).Inv) (stop : State → Bool) (fuel : Nat)
    {s : State} (h : s.Inv) : (repeatUntil body stop fuel s).Inv :=
  repeatUntil_invariant stop hbody fuel h

theorem State.fetchBytes_inv {s : State} (h : s.Inv) (n : Nat) : (s.fetchBytes n).2.Inv := by
  rw [State.fetchBytes_state]
  exact h

/-! ## The canonical form through every instruction -/

/-- Instruction by instruction: one that stores does so through the writes that keep the form, and the others leave the
memory as it is, by definition where no field is matched on. -/
theorem exec_nextHas_inv (i : Instr) {s : State} (h : s.Inv) : NextHas State.Inv (exec i s) := by
  cases i
  -- a byte of memory is written
  case ldAtHLR | ldAtHLN | ldAtIXR | ldAtIXN | ldAtIYR | ldAtIYN | ldAtBCA | ldAtDEA | ldAtNNA | resAtHL | resAtIX | resAtIY
      | setAtHL | setAtIX | setAtIY =>
    exact State.writeByte_inv h _ _
  case incAtHL | incAtIX | incAtIY | decAtHL | decAtIX | decAtIY | rlcAtHL | rrcAtHL | rlAtHL | rrAtHL | slaAtHL | sraAtHL
      | srlAtHL | rlcAtIX | rrcAtIX | rlAtIX | rrAtIX | slaAtIX | sraAtIX | srlAtIX | rlcAtIY | rrcAtIY | rlAtIY | rrAtIY
      | slaAtIY | sraAtIY | srlAtIY =>
    exact State.writeFlags_inv (State.writeByte_inv h _ _) _ _
  case rrd | rld => exact State.writeByte_inv h s.hl _
  -- a word of memory is written
  case ldAtNNHL | ldAtNNSS | ldAtNNIX | ldAtNNIY => exact State.afterWordAccess_nextHas _ (State.writeWord_inv h _ _)
  case exAtSPHL => exact State.afterWordAccess_nextHas _ (State.writeWord_inv h s.sp s.hl)
  case exAtSPIX => exact State.afterWordAccess_nextHas _ (State.writeWord_inv h s.sp s.ix)
  case exAtSPIY => exact State.afterWordAccess_nextHas _ (State.writeWord_inv h s.sp s.iy)
  case pushQQ | pushIX | pushIY => exact State.afterWordAccess_nextHas _ (State.push16_inv h _)
  case call | rst => exact State.afterWordAccess_nextHas _ (State.callTo_inv h _)
  case callCC cc nn =>
    rw [exec_callCC]
    exact nextHas_ite (State.afterWordAccess_nextHas _ (State.callTo_inv h nn)) h
  -- a block of memory is written
  case ldi | ldd => exact State.writeFlags_inv (State.transferOnce_inv _ s h) _ _
  case ini | ind => exact State.writeFlags_inv (State.inputOnce_inv _ s h) _ _
  case ldir | lddr => exact State.writeFlags_inv (repeatUntil_inv (State.transferOnce_inv _) _ _ h) _ _
  case inir | indr => exact State.writeFlags_inv (repeatUntil_inv (State.inputOnce_inv _) _ _ h) _ _
  -- a block of memory is read
  case cpir | cpdr => exact repeatUntil_inv (State.compareOnce_inv _) _ _ h
  case otir | otdr => exact State.writeFlags_inv (repeatUntil_inv (State.outputOnce_inv _) _ _ h) _ _
  -- a register or a pair is written through a field
  case ldRR | ldRN | ldRAtHL | ldRAtIX | ldRAtIY | resR | setR => exact State.setR_inv h _ _
  case incR | decR | rlcR | rrcR | rlR | rrR | slaR | sraR | srlR =>
    exact State.writeFlags_inv (State.setR_inv h _ _) _ _
  case inRAtC rd => exact State.writeFlags_inv (State.setR_inv (s := s.recordIn s.c) h rd _) _ _
  case ldSSNN | incSS | decSS => exact State.setSS_inv h _ _
  case ldSSAtNN => exact State.afterWordAccess_nextHas _ (State.setSS_inv h _ _)
  case popQQ => exact State.afterWordAccess_nextHas _ (State.setQQ_inv (s := s.popSP) h _ _)
  -- a word of memory is read into a register
  case ldHLAtNN | ldIXAtNN | ldIYAtNN | popIX | popIY | ret | reti | retn => exact State.afterWordAccess_nextHas _ h
  -- a condition is tested
  case retCC cc =>
    rw [exec_retCC]
    exact nextHas_ite (State.afterWordAccess_nextHas _ h) h
  case jpCC cc nn =>
    rw [exec_jpCC]
    exact nextHas_ite h h
  case jrCC cc e =>
    rw [exec_jrCC]
    exact nextHas_ite h h
  case djnz e =>
    rw [exec_djnz]
    exact nextHas_ite h h
  -- no memory is written
  all_goals exact h

/-- A next state that the execute phase answers keeps the canonical form. -/
theorem exec_keeps_inv {i : Instr} {s t : State} (hs : s.Inv) (h : exec i s = .next t) : t.Inv :=
  nextHas_iff.mp (exec_nextHas_inv i hs) t h

/-- Settles O12: by what a step can have done. -/
theorem stepKeepsMemoryForm : Obligations.StepKeepsMemoryForm := by
  intro s t hs h
  obtain ⟨-, rfl⟩ | ⟨-, i, len, -, -, hexec⟩ | ⟨-, why, len, -, -, rfl⟩ := step_next_cases h
  case inl => exact hs
  case inr.inl => exact exec_keeps_inv (State.fetchBytes_inv hs len) hexec
  case inr.inr => exact State.inv_of_mem_eq hs rfl

/-! ## Word accesses that cross the top of memory (R76, log 13) -/

/-- R76: an instruction that accesses a word answers its next state as that access allows. -/
theorem exec_of_wordAccess {i : Instr} {s : State} {addr : Word} (h : wordAccess i s = some addr) :
    ∃ t : State, exec i s = s.afterWordAccess addr t := by
  cases i
  case ldHLAtNN | ldAtNNHL | ldSSAtNN | ldAtNNSS | ldIXAtNN | ldAtNNIX | ldIYAtNN | ldAtNNIY | pushQQ | pushIX | pushIY | call
      | rst | popQQ | popIX | popIY | ret | reti | retn | exAtSPHL | exAtSPIX | exAtSPIY =>
    cases h
    exact ⟨_, rfl⟩
  case callCC cc nn =>
    rw [wordAccess_callCC] at h
    obtain ⟨hcc, haddr⟩ := Option.ite_none_right_eq_some.mp h
    rw [exec_callCC, if_pos hcc]
    cases haddr
    exact ⟨_, rfl⟩
  case retCC cc =>
    rw [wordAccess_retCC] at h
    obtain ⟨hcc, haddr⟩ := Option.ite_none_right_eq_some.mp h
    rw [exec_retCC, if_pos hcc]
    cases haddr
    exact ⟨_, rfl⟩
  all_goals nomatch h

/-- R76: instructions that all access one word are all refused where its access has no meaning. -/
theorem exec_refused_of_wordAccess {is : List Instr} {s : State} {addr : Word}
    (h : is.map (fun i => wordAccess i s) = List.replicate is.length (some addr)) (hcross : ¬ s.wordAllowed addr) :
    ∀ i ∈ is, exec i s = .refused .wrapsAtTop := by
  intro i hi
  obtain ⟨t, ht⟩ := exec_of_wordAccess (List.map_eq_replicate_iff.mp h i hi)
  rw [ht, State.afterWordAccess_of_not_allowed t hcross]

/-- R76: under `WRAP_FFFF = fault` the word at 0xFFFF has no meaning. -/
theorem State.not_wordAllowed_top {s : State} (h : s.params.wrapFfff = .fault) : ¬ s.wordAllowed 0xFFFF := by
  simp [State.wordAllowed, h]

/-- Settles O30: each instruction listed accesses the word at 0xFFFF. -/
theorem crossingWordAccessRefused : Obligations.CrossingWordAccessRefused := by
  intro s ss qq cc n nn hfault
  have htop : ¬ s.wordAllowed 0xFFFF := State.not_wordAllowed_top hfault
  have hpush : s.sp = 0x0001 → ¬ s.wordAllowed (s.sp - 2) := fun hsp => by rw [hsp]; exact htop
  have hpop : s.sp = 0xFFFF → ¬ s.wordAllowed s.sp := fun hsp => by rw [hsp]; exact htop
  refine ⟨exec_refused_of_wordAccess rfl htop, fun hsp => exec_refused_of_wordAccess rfl (hpush hsp), fun hsp hcc => ?callCC,
    fun hsp => exec_refused_of_wordAccess rfl (hpop hsp), fun hsp hcc => ?retCC⟩
  case callCC =>
    rw [exec_callCC, if_pos hcc]
    exact State.afterWordAccess_of_not_allowed _ (hpush hsp)
  case retCC =>
    rw [exec_retCC, if_pos hcc]
    exact State.afterWordAccess_of_not_allowed _ (hpop hsp)

end Sys2Proof.Machine

/-!
PROOFS of the statements of 30_encoding.md: the opcode byte and its fields, the round trip of encoder and tables in both
directions, and which first bytes, rows and lengths the decoder has.
-/
namespace Sys2Proof

/-! ## An opcode byte and its fields (R102) -/

/-- R102: the fields are as wide as they are, and `y` is `p` above `q`. -/
theorem fields_spec (b : Byte) : opX b < 4 ∧ opZ b < 8 ∧ opP b < 4 ∧ opQ b < 2 ∧ opY b = opP b * 2 + opQ b := by
  have hb := b.isLt
  unfold opX opY opZ opP opQ
  omega

@[simp] theorem opY_lt (b : Byte) : opY b < 8 := Nat.mod_lt _ (by decide)

@[simp] theorem opZ_lt (b : Byte) : opZ b < 8 := Nat.mod_lt _ (by decide)

@[simp] theorem opP_lt (b : Byte) : opP b < 4 := Nat.mod_lt _ (by decide)

/-- R102: an opcode byte has the fields it is made of, and only it has them. -/
@[simp] theorem opc_eq_iff {x y z : Nat} {b : Byte} (hx : x < 4) (hy : y < 8) (hz : z < 8) :
    opc x y z = b ↔ opX b = x ∧ opY b = y ∧ opZ b = z := by
  have hb := b.isLt
  have hval : (opc x y z).toNat = x * 64 + y * 8 + z := Nat.mod_eq_of_lt (by omega)
  rw [← BitVec.toNat_inj, hval]
  unfold opX opY opZ
  omega

@[simp] theorem opcPQ_eq_iff {x p q z : Nat} {b : Byte} (hx : x < 4) (hp : p < 4) (hq : q < 2) (hz : z < 8) :
    opcPQ x p q z = b ↔ opX b = x ∧ opP b = p ∧ opQ b = q ∧ opZ b = z := by
  have hb := fields_spec b
  rw [opcPQ, opc_eq_iff hx (by omega) hz]
  omega

@[simp] theorem opX_opc {x y z : Nat} (hx : x < 4) (hy : y < 8) (hz : z < 8) : opX (opc x y z) = x :=
  ((opc_eq_iff hx hy hz).mp rfl).1

@[simp] theorem opY_opc {x y z : Nat} (hx : x < 4) (hy : y < 8) (hz : z < 8) : opY (opc x y z) = y :=
  ((opc_eq_iff hx hy hz).mp rfl).2.1

@[simp] theorem opZ_opc {x y z : Nat} (hx : x < 4) (hy : y < 8) (hz : z < 8) : opZ (opc x y z) = z :=
  ((opc_eq_iff hx hy hz).mp rfl).2.2

@[simp] theorem opP_opc {x y z : Nat} (hx : x < 4) (hy : y < 8) (hz : z < 8) : opP (opc x y z) = y / 2 := by
  have hfields := fields_spec (opc x y z)
  rw [opY_opc hx hy hz] at hfields
  omega

@[simp] theorem opQ_opc {x y z : Nat} (hx : x < 4) (hy : y < 8) (hz : z < 8) : opQ (opc x y z) = y % 2 := by
  have hfields := fields_spec (opc x y z)
  rw [opY_opc hx hy hz] at hfields
  omega

@[simp] theorem opX_opcPQ {x p q z : Nat} (hx : x < 4) (hp : p < 4) (hq : q < 2) (hz : z < 8) : opX (opcPQ x p q z) = x :=
  ((opcPQ_eq_iff hx hp hq hz).mp rfl).1

@[simp] theorem opP_opcPQ {x p q z : Nat} (hx : x < 4) (hp : p < 4) (hq : q < 2) (hz : z < 8) : opP (opcPQ x p q z) = p :=
  ((opcPQ_eq_iff hx hp hq hz).mp rfl).2.1

@[simp] theorem opQ_opcPQ {x p q z : Nat} (hx : x < 4) (hp : p < 4) (hq : q < 2) (hz : z < 8) : opQ (opcPQ x p q z) = q :=
  ((opcPQ_eq_iff hx hp hq hz).mp rfl).2.2.1

@[simp] theorem opZ_opcPQ {x p q z : Nat} (hx : x < 4) (hp : p < 4) (hq : q < 2) (hz : z < 8) : opZ (opcPQ x p q z) = z :=
  ((opcPQ_eq_iff hx hp hq hz).mp rfl).2.2.2

/-- R102: an opcode byte is known by its fields. -/
theorem eq_opc_of_fields {b : Byte} {x y z : Nat} (hx : opX b = x) (hy : opY b = y) (hz : opZ b = z) : b = opc x y z := by
  subst hx hy hz
  exact ((opc_eq_iff (fields_spec b).1 (opY_lt b) (opZ_lt b)).mpr ⟨rfl, rfl, rfl⟩).symm

theorem eq_opcPQ_of_fields {b : Byte} {x p z : Nat} (hx : opX b = x) (hp : opP b = p) (hq : opQ b ≠ 0) (hz : opZ b = z) :
    b = opcPQ x p 1 z := by
  have hfields := fields_spec b
  exact eq_opc_of_fields hx (by omega) hz

theorem opP_eq_three {b : Byte} (h0 : opP b ≠ 0) (h1 : opP b ≠ 1) (h2 : opP b ≠ 2) : opP b = 3 := by
  have hfields := fields_spec b
  omega

theorem opX_eq_three {b : Byte} (h0 : opX b ≠ 0) (h1 : opX b ≠ 1) (h2 : opX b ≠ 2) : opX b = 3 := by
  have hfields := fields_spec b
  omega

/-! ## Operand fields (R40 to R43, R117) -/

@[simp] theorem Reg.code_lt (r : Reg) : r.code < 8 := by cases r <;> decide
@[simp] theorem RegSS.code_lt (k : RegSS) : k.code < 4 := by cases k <;> decide
@[simp] theorem RegQQ.code_lt (k : RegQQ) : k.code < 4 := by cases k <;> decide
@[simp] theorem RegPP.code_lt (k : RegPP) : k.code < 4 := by cases k <;> decide
@[simp] theorem RegRR.code_lt (k : RegRR) : k.code < 4 := by cases k <;> decide
@[simp] theorem CondJR.code_add_four_lt (k : CondJR) : k.code + 4 < 8 := by cases k <;> decide
@[simp] theorem Cond.code_lt (k : Cond) : k.code < 8 := by cases k <;> decide

@[simp] theorem Reg.ofCode_code (r : Reg) : Reg.ofCode r.code = some r := by cases r <;> rfl
@[simp] theorem RegSS.ofCode_code (k : RegSS) : RegSS.ofCode k.code = k := by cases k <;> rfl
@[simp] theorem RegQQ.ofCode_code (k : RegQQ) : RegQQ.ofCode k.code = k := by cases k <;> rfl
@[simp] theorem RegPP.ofCode_code (k : RegPP) : RegPP.ofCode k.code = k := by cases k <;> rfl
@[simp] theorem RegRR.ofCode_code (k : RegRR) : RegRR.ofCode k.code = k := by cases k <;> rfl
@[simp] theorem Cond.ofCode_code (k : Cond) : Cond.ofCode k.code = k := by cases k <;> rfl
@[simp] theorem CondJR.ofCode_code_mod (k : CondJR) : CondJR.ofCode (k.code % 4) = k := by cases k <;> rfl

@[simp] theorem RegSS.code_ofCode : ∀ {p : Nat}, p < 4 → (RegSS.ofCode p).code = p := by decide
@[simp] theorem RegQQ.code_ofCode : ∀ {p : Nat}, p < 4 → (RegQQ.ofCode p).code = p := by decide
@[simp] theorem RegPP.code_ofCode : ∀ {p : Nat}, p < 4 → (RegPP.ofCode p).code = p := by decide
@[simp] theorem RegRR.code_ofCode : ∀ {p : Nat}, p < 4 → (RegRR.ofCode p).code = p := by decide
@[simp] theorem Cond.code_ofCode : ∀ {y : Nat}, y < 8 → (Cond.ofCode y).code = y := by decide
theorem CondJR.code_ofCode : ∀ {y : Nat}, y < 4 → (CondJR.ofCode y).code = y := by decide

@[simp] theorem Reg.ofCode_eq_some {y : Nat} {r : Reg} : Reg.ofCode y = some r ↔ y = r.code := by
  refine ⟨fun h => ?_, fun h => h ▸ r.ofCode_code⟩
  unfold Reg.ofCode at h
  split at h <;> cases h <;> rfl

/-- R40: the one code that is no register is the memory operand's. -/
theorem Reg.ofCode_eq_none : ∀ {y : Nat}, y < 8 → (Reg.ofCode y = none ↔ y = 6) := by decide

@[simp] theorem Reg.ofCode_opY_eq_none {b : Byte} : Reg.ofCode (opY b) = none ↔ opY b = 6 := Reg.ofCode_eq_none (opY_lt b)

@[simp] theorem Reg.ofCode_opZ_eq_none {b : Byte} : Reg.ofCode (opZ b) = none ↔ opZ b = 6 := Reg.ofCode_eq_none (opZ_lt b)

@[simp] theorem Reg.ofCode_six : Reg.ofCode 6 = none := rfl

@[simp] theorem fieldFin_val (b : Fin 8) : fieldFin b.val = b := Fin.ofNat_val_eq_self b

@[simp] theorem val_fieldFin {y : Nat} (hy : y < 8) : (fieldFin y).val = y := Nat.mod_eq_of_lt hy

/-! ## From the tables to the encoder (R120 to R124) -/

/-- These bytes, as far as they are decoded, are the encoding of what they decode to. -/
def Decoded.Encodes (bytes : List Byte) : Decoded → Prop
  | .ok i len => encode i = bytes.take len ∧ len = (encode i).length
  | .error _ _ => True

@[simp] theorem Decoded.encodes_ok {bytes : List Byte} {i : Instr} {len : Nat} :
    (Decoded.ok i len).Encodes bytes ↔ encode i = bytes.take len ∧ len = (encode i).length := Iff.rfl

@[simp] theorem Decoded.encodes_error (bytes : List Byte) (why : DecodeReason) (len : Nat) :
    (Decoded.error why len).Encodes bytes := trivial

/- Each table is read arm by arm: the fields an arm tests are those the encoder puts in the opcode byte (`opc_eq_iff`). Only
for the last arm of a match, which names no value, the field is found by its width (`fields_spec`). -/

theorem decodeX0_encodes {b0 b1 b2 b3 : Byte} (hx : opX b0 = 0) : (decodeX0 b0 b1 b2).Encodes [b0, b1, b2, b3] := by
  fun_cases decodeX0 b0 b1 b2
  all_goals simp_all [encode]
  all_goals
    have hcode := CondJR.code_ofCode (Nat.mod_lt (opY b0) (by decide : 0 < 4))
    have hfields := fields_spec b0
    omega

theorem decodeX1_encodes {b0 b1 b2 b3 : Byte} (hx : opX b0 = 1) : (decodeX1 b0).Encodes [b0, b1, b2, b3] := by
  fun_cases decodeX1 b0
  all_goals simp_all [encode]

theorem decodeX2_encodes {b0 b1 b2 b3 : Byte} (hx : opX b0 = 2) : (decodeX2 b0).Encodes [b0, b1, b2, b3] := by
  fun_cases decodeX2 b0
  all_goals simp_all [encode]
  all_goals
    have hfields := fields_spec b0
    omega

theorem decodeAluN_encodes {b0 b1 b2 b3 : Byte} {y : Nat} (hx : opX b0 = 3) (hz : opZ b0 = 6) (hy : opY b0 = y) :
    (decodeAluN y b1).Encodes [b0, b1, b2, b3] := by
  fun_cases decodeAluN y b1
  all_goals simp_all [encode]
  all_goals
    have hfields := fields_spec b0
    omega

theorem decodeCB_encodes (b1 b2 b3 : Byte) : (decodeCB b1).Encodes [0xCB, b1, b2, b3] := by
  fun_cases decodeCB b1
  all_goals simp_all [encode]
  all_goals
    have hfields := fields_spec b1
    omega

theorem decodeED_encodes (b1 b2 b3 : Byte) : (decodeED b1 b2 b3).Encodes [0xED, b1, b2, b3] := by
  fun_cases decodeED b1 b2 b3
  all_goals simp_all [encode]
  all_goals
    have hfields := fields_spec b1
    omega

theorem decodeDD_encodes (b1 b2 b3 : Byte) : (decodeDD b1 b2 b3).Encodes [0xDD, b1, b2, b3] := by
  fun_cases decodeDD b1 b2 b3
  all_goals simp_all [encode]
  all_goals
    have hfields := fields_spec b1
    omega

theorem decodeFD_encodes (b1 b2 b3 : Byte) : (decodeFD b1 b2 b3).Encodes [0xFD, b1, b2, b3] := by
  fun_cases decodeFD b1 b2 b3
  all_goals simp_all [encode]
  all_goals
    have hfields := fields_spec b1
    omega

theorem decodeDDCB_encodes (d op : Byte) : (decodeDDCB d op).Encodes [0xDD, 0xCB, d, op] := by
  fun_cases decodeDDCB d op
  all_goals simp_all [encode]
  all_goals
    have hfields := fields_spec op
    omega

theorem decodeFDCB_encodes (d op : Byte) : (decodeFDCB d op).Encodes [0xFD, 0xCB, d, op] := by
  fun_cases decodeFDCB d op
  all_goals simp_all [encode]
  all_goals
    have hfields := fields_spec op
    omega

theorem decodeX3_encodes {b0 b1 b2 b3 : Byte} (hx : opX b0 = 3) : (decodeX3 b0 b1 b2 b3).Encodes [b0, b1, b2, b3] := by
  fun_cases decodeX3 b0 b1 b2 b3
  case case9 hz hy =>
    obtain rfl : b0 = 0xCB := eq_opc_of_fields hx hy hz
    exact decodeCB_encodes b1 b2 b3
  case case19 hz hp hb1 hq =>
    obtain rfl : b0 = 0xDD := eq_opcPQ_of_fields hx hp hq hz
    exact hb1 ▸ decodeDDCB_encodes b2 b3
  case case20 hz hp hb1 hq =>
    obtain rfl : b0 = 0xDD := eq_opcPQ_of_fields hx hp hq hz
    exact decodeDD_encodes b1 b2 b3
  case case21 hz hp hq =>
    obtain rfl : b0 = 0xED := eq_opcPQ_of_fields hx hp hq hz
    exact decodeED_encodes b1 b2 b3
  case case22 hz hb1 hq hp0 hp1 hp2 =>
    obtain rfl : b0 = 0xFD := eq_opcPQ_of_fields hx (opP_eq_three hp0 hp1 hp2) hq hz
    exact hb1 ▸ decodeFDCB_encodes b2 b3
  case case23 hz hb1 hq hp0 hp1 hp2 =>
    obtain rfl : b0 = 0xFD := eq_opcPQ_of_fields hx (opP_eq_three hp0 hp1 hp2) hq hz
    exact decodeFD_encodes b1 b2 b3
  case case24 hz => exact decodeAluN_encodes hx hz rfl
  all_goals simp_all [encode]
  all_goals
    have hfields := fields_spec b0
    omega

/-- R119: what any four bytes decode to is encoded by them. -/
theorem decodeTables_encodes (b0 b1 b2 b3 : Byte) : (decodeTables b0 b1 b2 b3).Encodes [b0, b1, b2, b3] := by
  fun_cases decodeTables b0 b1 b2 b3
  case case1 hx => exact decodeX0_encodes hx
  case case2 hx => exact decodeX1_encodes hx
  case case3 hx => exact decodeX2_encodes hx
  case case4 h0 h1 h2 => exact decodeX3_encodes (opX_eq_three h0 h1 h2)

/-! ## From the encoder to the tables (R120 to R124) -/

theorem decodeTables_of_opX_zero {b0 : Byte} (h : opX b0 = 0) (b1 b2 b3 : Byte) :
    decodeTables b0 b1 b2 b3 = decodeX0 b0 b1 b2 := by
  simp [decodeTables, h]

theorem decodeTables_of_opX_one {b0 : Byte} (h : opX b0 = 1) (b1 b2 b3 : Byte) :
    decodeTables b0 b1 b2 b3 = decodeX1 b0 := by
  simp [decodeTables, h]

theorem decodeTables_of_opX_two {b0 : Byte} (h : opX b0 = 2) (b1 b2 b3 : Byte) :
    decodeTables b0 b1 b2 b3 = decodeX2 b0 := by
  simp [decodeTables, h]

theorem decodeTables_of_opX_three {b0 : Byte} (h : opX b0 = 3) (b1 b2 b3 : Byte) :
    decodeTables b0 b1 b2 b3 = decodeX3 b0 b1 b2 b3 := by
  simp [decodeTables, h]

theorem decodeTables_CB (b1 b2 b3 : Byte) : decodeTables 0xCB#8 b1 b2 b3 = decodeCB b1 := rfl

theorem decodeTables_ED (b1 b2 b3 : Byte) : decodeTables 0xED#8 b1 b2 b3 = decodeED b1 b2 b3 := rfl

theorem decodeTables_DD (b1 b2 b3 : Byte) :
    decodeTables 0xDD#8 b1 b2 b3 = if b1 = 0xCB then decodeDDCB b2 b3 else decodeDD b1 b2 b3 := rfl

theorem decodeTables_FD (b1 b2 b3 : Byte) :
    decodeTables 0xFD#8 b1 b2 b3 = if b1 = 0xCB then decodeFDCB b2 b3 else decodeFD b1 b2 b3 := rfl

theorem decodeTables_DD_of_ne {b1 b2 b3 : Byte} (h : b1 ≠ 0xCB) :
    decodeTables 0xDD b1 b2 b3 = decodeDD b1 b2 b3 := if_neg h

theorem decodeTables_FD_of_ne {b1 b2 b3 : Byte} (h : b1 ≠ 0xCB) :
    decodeTables 0xFD b1 b2 b3 = decodeFD b1 b2 b3 := if_neg h

@[simp] theorem opX_CB : opX 0xCB#8 = 3 := rfl

@[simp] theorem opY_CB : opY 0xCB#8 = 1 := rfl

/-- An instruction with no field in its opcode byte and no word is decoded by evaluation; the others by the fields that
`opc` and `opcPQ` put there. -/
theorem decodeTables_encode (i : Instr) (rest : List Byte) :
    decodeTables ((encode i ++ rest).getD 0 0) ((encode i ++ rest).getD 1 0) ((encode i ++ rest).getD 2 0)
      ((encode i ++ rest).getD 3 0) = .ok i (encode i).length := by
  cases i
  all_goals simp only [encode, List.cons_append, List.nil_append, List.getD_cons_zero, List.getD_cons_succ]
  case ldAtHLN | ldAAtBC | ldAAtDE | ldAtBCA | ldAtDEA | ldSPHL | addAN | addAAtHL | adcAN | adcAAtHL | subN | subAtHL
      | sbcAN | sbcAAtHL | andN | andAtHL | xorN | xorAtHL | orN | orAtHL | cpN | cpAtHL | incAtHL | decAtHL | rlca
      | rrca | rla | rra | daa | cpl | scf | ccf | halt | nop | exAFAF | djnz | jr | jpHL | ret | outAtNA | inAAtN | exx
      | exAtSPHL | exDEHL | di | ei | rlcAtHL | rrcAtHL | rlAtHL | rrAtHL | slaAtHL | sraAtHL | srlAtHL | neg | retn
      | reti | im0 | im1 | im2 | ldIA | ldRA | ldAI | ldAR | rrd | rld | ldi | ldd | ldir | lddr | cpi | cpd | cpir
      | cpdr | ini | ind | inir | indr | outi | outd | otir | otdr | incIX | decIX | incAtIX | decAtIX | ldAtIXN
      | addAAtIX | adcAAtIX | subAtIX | sbcAAtIX | andAtIX | xorAtIX | orAtIX | cpAtIX | popIX | exAtSPIX | pushIX
      | jpIX | ldSPIX | rlcAtIX | rrcAtIX | rlAtIX | rrAtIX | slaAtIX | sraAtIX | srlAtIX | incIY | decIY | incAtIY
      | decAtIY | ldAtIYN | addAAtIY | adcAAtIY | subAtIY | sbcAAtIY | andAtIY | xorAtIY | orAtIY | cpAtIY | popIY
      | exAtSPIY | pushIY | jpIY | ldSPIY | rlcAtIY | rrcAtIY | rlAtIY | rrAtIY | slaAtIY | sraAtIY | srlAtIY => rfl
  case ldRN | ldAAtNN | ldAtNNA | ldSSNN | ldHLAtNN | ldAtNNHL | incR | decR | addHLSS | incSS | decSS | jrCC =>
    simp [decodeTables_of_opX_zero, decodeX0]
  case ldRR | ldRAtHL | ldAtHLR =>
    simp [decodeTables_of_opX_one, decodeX1]
  case addAR | adcAR | subR | sbcAR | andR | xorR | orR | cpR =>
    simp [decodeTables_of_opX_two, decodeX2]
  case pushQQ | popQQ | jp | jpCC | call | callCC | retCC | rst =>
    simp [decodeTables_of_opX_three, decodeX3]
  case rlcR | rrcR | rlR | rrR | slaR | sraR | srlR | bitR | bitAtHL | resR | resAtHL | setR | setAtHL =>
    simp [decodeTables_CB, decodeCB]
  case inRAtC | outAtCR | sbcHLSS | adcHLSS | ldAtNNSS | ldSSAtNN =>
    simp [decodeTables_ED, decodeED]
  case addIXPP | ldIXNN | ldAtNNIX | ldIXAtNN | ldRAtIX | ldAtIXR =>
    simp [decodeTables_DD, decodeDD]
  case bitAtIX | resAtIX | setAtIX =>
    simp [decodeTables_DD, decodeDDCB]
  case addIYRR | ldIYNN | ldAtNNIY | ldIYAtNN | ldRAtIY | ldAtIYR =>
    simp [decodeTables_FD, decodeFD]
  case bitAtIY | resAtIY | setAtIY =>
    simp [decodeTables_FD, decodeFDCB]

/-! ## The gates of generation and tier (R118, R119) -/

/-- R118: the first byte alone says whether a row is of both generations. -/
theorem z80OnlyFirst_encode (i : Instr) : z80OnlyFirst ((encode i).headD 0) = decide (i.availability.1 = .z80Only) := by
  cases i
  case ldRR rd rs => cases rd <;> cases rs <;> rfl
  case ldRN r _ | ldRAtHL r | ldAtHLR r | addAR r | adcAR r | subR r | sbcAR r | andR r | xorR r | orR r | cpR r | incR r
      | decR r | ldSSNN r _ | addHLSS r | incSS r | decSS r | pushQQ r | popQQ r | jrCC r _ | jpCC r _ | callCC r _
      | retCC r =>
    cases r <;> rfl
  case rst t => revert t; decide
  all_goals rfl

theorem firstByteAvailable_encode (g : Gen) {i : Instr} {b0 : Byte} (h : (encode i).head? = some b0) :
    firstByteAvailable g b0 = i.inGeneration g := by
  have hfirst := z80OnlyFirst_encode i
  rw [List.headD_eq_head?_getD, h] at hfirst
  cases g with
  | z80 => rfl
  | i80 =>
    simp only [firstByteAvailable, Instr.inGeneration]
    cases hg : i.availability.1 <;> simp_all

/-- R119, R431: a row of tier C is a refusal where tier C does not decode. -/
def Decoded.gate (t : TierC) : Decoded → Decoded
  | .error why len => .error why len
  | .ok i len => if i.inTier t = true then .ok i len else .error .tierC len

/-- R118, R119: the generation rules on the first byte, the tier on the entry found. -/
theorem decode_eq (p : Params) (b0 b1 b2 b3 : Byte) :
    decode p b0 b1 b2 b3 =
      if firstByteAvailable p.gen b0 = true then (decodeTables b0 b1 b2 b3).gate p.tierC else .error .z80Only 1 := by
  unfold decode Decoded.gate
  cases firstByteAvailable p.gen b0
  case false => rfl
  case true =>
    cases decodeTables b0 b1 b2 b3 with
    | error => rfl
    | ok i len =>
      dsimp only
      cases i.inTier p.tierC <;> rfl

theorem Decoded.gate_eq_ok {t : TierC} {d : Decoded} {i : Instr} {len : Nat} :
    d.gate t = .ok i len ↔ d = .ok i len ∧ i.inTier t = true := by
  cases d with
  | error => simp [Decoded.gate]
  | ok j k =>
    by_cases hj : j.inTier t = true
    · simp only [Decoded.gate, if_pos hj, Decoded.ok.injEq]
      exact ⟨fun h => ⟨h, h.1 ▸ hj⟩, And.left⟩
    · simp only [Decoded.gate, if_neg hj, reduceCtorEq, Decoded.ok.injEq, false_iff]
      exact fun ⟨⟨hji, _⟩, hi⟩ => hj (hji ▸ hi)

theorem decode_eq_ok {p : Params} {b0 b1 b2 b3 : Byte} {i : Instr} {len : Nat} :
    decode p b0 b1 b2 b3 = .ok i len ↔
      firstByteAvailable p.gen b0 = true ∧ decodeTables b0 b1 b2 b3 = .ok i len ∧ i.inTier p.tierC = true := by
  rw [decode_eq, ← Decoded.gate_eq_ok]
  split
  next h => simp [h]
  next h => simp [h]

/-! ## The round trips -/

theorem encode_length_bounds (i : Instr) : 1 ≤ (encode i).length ∧ (encode i).length ≤ 4 := by
  cases i <;> exact ⟨Nat.le_of_ble_eq_true rfl, Nat.le_of_ble_eq_true rfl⟩

/-- Settles O2: the tables give the instruction back (`decodeTables_encode`), and neither gate refuses it. -/
theorem decodeOfEncode : Obligations.DecodeOfEncode := by
  intro p i rest hwf
  obtain ⟨hgen, htier⟩ := Bool.and_eq_true_iff.mp hwf
  have hfirst : firstByteAvailable p.gen ((encode i ++ rest).getD 0 0) = true := by
    obtain ⟨b0, tail, henc⟩ := List.exists_cons_of_length_pos (encode_length_bounds i).1
    rw [henc, List.cons_append, List.getD_cons_zero, firstByteAvailable_encode p.gen (i := i) (henc ▸ rfl), hgen]
  have hdec := decode_eq_ok.mpr ⟨hfirst, decodeTables_encode i rest, htier⟩
  simp only [decodeBytes, hdec, Decoded.length]
  rw [if_pos (by simp), List.drop_left]

/-- Settles O3: what the tables answer is encoded by the bytes (`decodeTables_encodes`), and the gates let it pass. -/
theorem encodeOfDecode : Obligations.EncodeOfDecode := by
  intro p b0 b1 b2 b3 i len h
  obtain ⟨hfirst, htables, htier⟩ := decode_eq_ok.mp h
  have henc := decodeTables_encodes b0 b1 b2 b3
  rw [htables, Decoded.encodes_ok] at henc
  obtain ⟨hbytes, hlen⟩ := henc
  refine ⟨hbytes, hlen, Bool.and_eq_true_iff.mpr ⟨?_, htier⟩⟩
  have hpos : len ≠ 0 := by
    have hbound := (encode_length_bounds i).1
    omega
  rw [← firstByteAvailable_encode p.gen (b0 := b0), hfirst]
  rw [hbytes, List.head?_take, if_neg hpos]
  rfl

/-! ## What the tables say of an opcode, whatever its operands (R130) -/

/-- What a table entry says whatever its operands: the refusal or the tier of the row, and the length. -/
def Decoded.outline : Decoded → (DecodeReason ⊕ Tier) × Nat
  | .ok i len => (.inr i.availability.2, len)
  | .error why len => (.inl why, len)

theorem decodeX0_outline (b0 b1 b2 : Byte) : (decodeX0 b0 b1 b2).outline = (decodeX0 b0 0 0).outline := by
  unfold decodeX0
  repeat' split
  all_goals simp only [Decoded.outline, Instr.availability]

theorem decodeAluN_outline (y : Nat) (n : Byte) : (decodeAluN y n).outline = (decodeAluN y 0).outline := by
  unfold decodeAluN
  split
  all_goals simp only [Decoded.outline, Instr.availability]

theorem decodeED_outline (b1 b2 b3 : Byte) : (decodeED b1 b2 b3).outline = (decodeED b1 0 0).outline := by
  unfold decodeED
  repeat' split
  all_goals simp only [Decoded.outline, Instr.availability]

theorem decodeDD_outline (b1 b2 b3 : Byte) : (decodeDD b1 b2 b3).outline = (decodeDD b1 0 0).outline := by
  unfold decodeDD
  repeat' split
  all_goals simp only [Decoded.outline, Instr.availability]

theorem decodeFD_outline (b1 b2 b3 : Byte) : (decodeFD b1 b2 b3).outline = (decodeFD b1 0 0).outline := by
  unfold decodeFD
  repeat' split
  all_goals simp only [Decoded.outline, Instr.availability]

theorem decodeDDCB_outline (d op : Byte) : (decodeDDCB d op).outline = (decodeDDCB 0 op).outline := by
  unfold decodeDDCB
  repeat' split
  all_goals simp only [Decoded.outline, Instr.availability]

theorem decodeFDCB_outline (d op : Byte) : (decodeFDCB d op).outline = (decodeFDCB 0 op).outline := by
  unfold decodeFDCB
  repeat' split
  all_goals simp only [Decoded.outline, Instr.availability]

/-- R101: the four bytes that select another table. -/
def prefixBytes : List Byte := [0xCB, 0xED, 0xDD, 0xFD]

/-- R101: the fields by which the base table finds these four bytes. -/
theorem mem_prefixBytes_of_fields : ∀ {b : Byte}, opX b = 3 →
    (opZ b = 3 ∧ opY b = 1) ∨ (opZ b = 5 ∧ opQ b ≠ 0 ∧ opP b ≠ 0) → b ∈ prefixBytes := by
  decide

theorem decodeX3_outline {b0 : Byte} (hx : opX b0 = 3) (h : b0 ∉ prefixBytes) (b1 b2 b3 : Byte) :
    (decodeX3 b0 b1 b2 b3).outline = (decodeX3 b0 0 0 0).outline := by
  have hCB : ¬ (opZ b0 = 3 ∧ opY b0 = 1) := fun hf => h (mem_prefixBytes_of_fields hx (.inl hf))
  have hrest : ¬ (opZ b0 = 5 ∧ opQ b0 ≠ 0 ∧ opP b0 ≠ 0) := fun hf => h (mem_prefixBytes_of_fields hx (.inr hf))
  unfold decodeX3
  split
  case h_7 => exact decodeAluN_outline _ _
  all_goals repeat' split
  all_goals simp_all [Decoded.outline, Instr.availability]

theorem decodeTables_outline {b0 : Byte} (h : b0 ∉ prefixBytes) (b1 b2 b3 : Byte) :
    (decodeTables b0 b1 b2 b3).outline = (decodeTables b0 0 0 0).outline := by
  unfold decodeTables
  split
  case h_1 => exact decodeX0_outline b0 b1 b2
  case h_2 | h_3 => rfl
  case h_4 h0 h1 h2 => exact decodeX3_outline (opX_eq_three h0 h1 h2) h b1 b2 b3

theorem Decoded.gate_length (t : TierC) (d : Decoded) : (d.gate t).length = d.outline.2 := by
  cases d with
  | error => rfl
  | ok i len => by_cases h : i.inTier t = true <;> simp [Decoded.gate, Decoded.outline, Decoded.length, h]

theorem decode_length (p : Params) (b0 b1 b2 b3 : Byte) :
    (decode p b0 b1 b2 b3).length =
      if firstByteAvailable p.gen b0 = true then (decodeTables b0 b1 b2 b3).outline.2 else 1 := by
  rw [decode_eq]
  split
  · exact Decoded.gate_length _ _
  · rfl

/-! ## Which bytes are refused, why, and after how many bytes (R118, R119, R431) -/

/-- The refusal, with the number of bytes fetched, if it is one. -/
def Decoded.refusal : Decoded → Option (DecodeReason × Nat)
  | .ok _ _ => none
  | .error why len => some (why, len)

theorem Decoded.eq_error_iff {d : Decoded} {why : DecodeReason} {len : Nat} :
    d = .error why len ↔ d.refusal = some (why, len) := by
  cases d <;> simp [Decoded.refusal]

theorem Decoded.exists_ok_iff {d : Decoded} : (∃ i len, d = .ok i len) ↔ d.refusal = none := by
  cases d <;> simp [Decoded.refusal]

/-- R6: what the tier gate refuses shows in the outline. -/
theorem Decoded.gate_refusal (t : TierC) (d : Decoded) :
    (d.gate t).refusal =
      match d.outline with
      | (.inl why, len) => some (why, len)
      | (.inr .c, len) => if t = .fault then some (.tierC, len) else none
      | (.inr _, _) => none := by
  cases d with
  | error => rfl
  | ok i len =>
    cases t <;> cases h : i.availability.2 <;> simp [Decoded.gate, Decoded.outline, Decoded.refusal, Instr.inTier, h]

theorem Decoded.gate_refusal_congr {d d' : Decoded} (h : d.outline = d'.outline) (t : TierC) :
    (d.gate t).refusal = (d'.gate t).refusal := by
  rw [Decoded.gate_refusal, Decoded.gate_refusal, h]

/-- R119 (a). -/
def refusalCB (b1 : Byte) : Option (DecodeReason × Nat) :=
  if 0x30 ≤ b1.toNat ∧ b1.toNat ≤ 0x37 then some (.noCB, 2) else none

/-- R119 (b), and the tier C rows of the ED table (R6). -/
def refusalED (t : TierC) (b1 : Byte) : Option (DecodeReason × Nat) :=
  if b1.toNat ≤ 0x3F ∨ (0x80 ≤ b1.toNat ∧ b1.toNat ≤ 0x9F) ∨ (0xA4 ≤ b1.toNat ∧ b1.toNat ≤ 0xA7) ∨
      (0xAC ≤ b1.toNat ∧ b1.toNat ≤ 0xAF) ∨ (0xB4 ≤ b1.toNat ∧ b1.toNat ≤ 0xB7) ∨ 0xBC ≤ b1.toNat ∨
      b1 ∈ [0x4C, 0x4E, 0x54, 0x55, 0x5C, 0x5D, 0x64, 0x65, 0x66, 0x6C, 0x6D, 0x6E, 0x70, 0x71, 0x74, 0x75, 0x76, 0x77,
        0x7C, 0x7D, 0x7E, 0x7F] then
    some (.noED, 2)
  else if t = .fault ∧
      b1 ∈ [0x40, 0x48, 0x50, 0x58, 0x60, 0x68, 0x78, 0x41, 0x49, 0x51, 0x59, 0x61, 0x69, 0x79, 0x45, 0x4D, 0x46, 0x56,
        0x5E, 0x6F, 0xA2, 0xAA, 0xB2, 0xBA, 0xA3, 0xAB, 0xB3, 0xBB] then
    some (.tierC, 2)
  else none

/-- R119 (c): the DD and FD tables have the same opcodes. -/
def refusalIndexed (why : DecodeReason) (b1 : Byte) : Option (DecodeReason × Nat) :=
  if b1 ∉ [0x09, 0x19, 0x29, 0x39, 0x21, 0x22, 0x23, 0x2A, 0x2B, 0x34, 0x35, 0x36, 0x46, 0x4E, 0x56, 0x5E, 0x66, 0x6E,
      0x7E, 0x70, 0x71, 0x72, 0x73, 0x74, 0x75, 0x77, 0x86, 0x8E, 0x96, 0x9E, 0xA6, 0xAE, 0xB6, 0xBE, 0xE1, 0xE3, 0xE5,
      0xE9, 0xF9] then
    some (why, 2)
  else none

/-- R119 (d): the DD CB and FD CB tables have the same opcodes. -/
def refusalIndexedCB (why : DecodeReason) (op : Byte) : Option (DecodeReason × Nat) :=
  if op.toNat % 8 ≠ 6 ∨ op = 0x36 then some (why, 4) else none

/-- R6: the tier C rows of the base table. -/
def refusalBase (t : TierC) (b0 : Byte) : Option (DecodeReason × Nat) :=
  if t = .fault ∧ b0 ∈ [0x00, 0xC7, 0xCF, 0xD7, 0xDF, 0xE7, 0xEF, 0xF7, 0xFF, 0xF3, 0xFB] then some (.tierC, 1)
  else none

theorem decodeCB_refusal (t : TierC) (b1 : Byte) : ((decodeCB b1).gate t).refusal = refusalCB b1 := by
  revert b1
  cases t <;> decide

theorem decodeED_refusal (t : TierC) (b1 b2 b3 : Byte) : ((decodeED b1 b2 b3).gate t).refusal = refusalED t b1 := by
  rw [Decoded.gate_refusal_congr (decodeED_outline b1 b2 b3)]
  revert b1
  cases t <;> decide

theorem decodeDD_refusal (t : TierC) (b1 b2 b3 : Byte) :
    ((decodeDD b1 b2 b3).gate t).refusal = refusalIndexed .noDD b1 := by
  rw [Decoded.gate_refusal_congr (decodeDD_outline b1 b2 b3)]
  revert b1
  cases t <;> decide

theorem decodeFD_refusal (t : TierC) (b1 b2 b3 : Byte) :
    ((decodeFD b1 b2 b3).gate t).refusal = refusalIndexed .noFD b1 := by
  rw [Decoded.gate_refusal_congr (decodeFD_outline b1 b2 b3)]
  revert b1
  cases t <;> decide

theorem decodeDDCB_refusal (t : TierC) (d op : Byte) :
    ((decodeDDCB d op).gate t).refusal = refusalIndexedCB .noDDCB op := by
  rw [Decoded.gate_refusal_congr (decodeDDCB_outline d op)]
  revert op
  cases t <;> decide

theorem decodeFDCB_refusal (t : TierC) (d op : Byte) :
    ((decodeFDCB d op).gate t).refusal = refusalIndexedCB .noFDCB op := by
  rw [Decoded.gate_refusal_congr (decodeFDCB_outline d op)]
  revert op
  cases t <;> decide

theorem decodeTables_refusal (t : TierC) {b0 : Byte} (h : b0 ∉ prefixBytes) (b1 b2 b3 : Byte) :
    ((decodeTables b0 b1 b2 b3).gate t).refusal = refusalBase t b0 := by
  rw [Decoded.gate_refusal_congr (decodeTables_outline h b1 b2 b3)]
  revert b0
  cases t <;> decide

/-- R118, R119, R431: which bytes are refused, why, and after how many bytes. -/
def refusalOf (p : Params) (b0 b1 b3 : Byte) : Option (DecodeReason × Nat) :=
  if firstByteAvailable p.gen b0 = false then some (.z80Only, 1)
  else if b0 = 0xCB then refusalCB b1
  else if b0 = 0xED then refusalED p.tierC b1
  else if b0 = 0xDD then if b1 = 0xCB then refusalIndexedCB .noDDCB b3 else refusalIndexed .noDD b1
  else if b0 = 0xFD then if b1 = 0xCB then refusalIndexedCB .noFDCB b3 else refusalIndexed .noFD b1
  else refusalBase p.tierC b0

theorem decode_refusal (p : Params) (b0 b1 b2 b3 : Byte) : (decode p b0 b1 b2 b3).refusal = refusalOf p b0 b1 b3 := by
  rw [decode_eq, refusalOf]
  cases firstByteAvailable p.gen b0
  case false => rfl
  case true =>
    simp only [if_true, Bool.true_eq_false, if_false]
    split_ifs with hCB hED hDD hb1 hFD hb1
    · exact hCB ▸ decodeCB_refusal p.tierC b1
    · exact hED ▸ decodeED_refusal p.tierC b1 b2 b3
    · exact hDD ▸ hb1 ▸ decodeDDCB_refusal p.tierC b2 b3
    · rw [hDD, decodeTables_DD_of_ne hb1]
      exact decodeDD_refusal p.tierC b1 b2 b3
    · exact hFD ▸ hb1 ▸ decodeFDCB_refusal p.tierC b2 b3
    · rw [hFD, decodeTables_FD_of_ne hb1]
      exact decodeFD_refusal p.tierC b1 b2 b3
    · exact decodeTables_refusal p.tierC (by simp_all [prefixBytes]) b1 b2 b3

theorem refusalOf_eq_z80Only {p : Params} {b0 b1 b3 : Byte} {len : Nat} :
    refusalOf p b0 b1 b3 = some (.z80Only, len) ↔ firstByteAvailable p.gen b0 = false ∧ len = 1 := by
  unfold refusalOf refusalCB refusalED refusalIndexed refusalIndexedCB refusalBase
  split_ifs with h
  case pos => simp [h, eq_comm]
  all_goals simp [h]

theorem exists_ite_eq_some {α β : Type} {c : Prop} [Decidable c] {x : α × β} {o : Option (α × β)} :
    (∃ why len, (if c then some x else o) = some (why, len)) ↔ c ∨ ∃ why len, o = some (why, len) := by
  by_cases h : c <;> simp [h, Prod.ext_iff]

/-! ## The statements on refusals and lengths -/

theorem inGeneration_i80 (i : Instr) : i.inGeneration .i80 = true ↔ i.availability.1 = .both := by
  unfold Instr.inGeneration
  cases i.availability.1 <;> simp

theorem firstByteAvailable_i80 : ∀ b0 : Byte, firstByteAvailable .i80 b0 = false ↔
    b0 ∈ [0x08, 0x10, 0x18, 0x20, 0x28, 0x30, 0x38, 0xD9, 0xCB, 0xDD, 0xED, 0xFD] := by
  decide

/-- Settles O4: the first byte alone decides, and past it only prefixed tables and tier C refuse. -/
theorem generationGatesFirstByte : Obligations.GenerationGatesFirstByte := by
  refine ⟨fun i => rfl, inGeneration_i80, fun p b0 b1 b2 b3 hgen => ?_⟩
  refine ⟨fun i len h => ?both, ?z80Only, fun htier h => ?others⟩
  case both =>
    obtain ⟨-, -, hwf⟩ := encodeOfDecode p b0 b1 b2 b3 i len h
    rw [Instr.wellFormed, hgen, Bool.and_eq_true_iff] at hwf
    exact (inGeneration_i80 i).mp hwf.1
  case z80Only =>
    simp only [Decoded.eq_error_iff, decode_refusal, refusalOf_eq_z80Only, hgen, firstByteAvailable_i80]
    exact ⟨fun ⟨_, hb0, _⟩ => hb0, fun hb0 => ⟨1, hb0, rfl⟩⟩
  case others =>
    have hfirst := h
    rw [← firstByteAvailable_i80, ← hgen] at hfirst
    rw [Decoded.exists_ok_iff, decode_refusal, refusalOf, if_neg hfirst]
    simp_all [refusalBase]

/-- Settles O5: table by table, from `decode_refusal`. -/
theorem undefinedEncodingsAreListed : Obligations.UndefinedEncodingsAreListed := by
  intro p b0 b1 b2 b3 hgen
  have havail : ¬ firstByteAvailable p.gen b0 = false := by simp [hgen, firstByteAvailable]
  simp only [Decoded.eq_error_iff, decode_refusal, refusalOf, if_neg havail]
  by_cases hCB : b0 = 0xCB
  · simp [hCB, refusalCB]
  by_cases hED : b0 = 0xED
  · simp [hED, refusalED, exists_ite_eq_some]
  by_cases hDD : b0 = 0xDD
  · by_cases hb1 : b1 = 0xCB
    · simp [hDD, hb1, refusalIndexedCB]
    · simp_all [refusalIndexed]
  by_cases hFD : b0 = 0xFD
  · by_cases hb1 : b1 = 0xCB
    · simp [hFD, hb1, refusalIndexedCB]
    · simp_all [refusalIndexed]
  · simp_all [refusalBase]

/-- R130: the operands after the opcode byte of a prefixed table do not change the outline. -/
theorem decodeTables_outline_prefixed {b0 b1 : Byte} (h : ¬ ((b0 = 0xDD ∨ b0 = 0xFD) ∧ b1 = 0xCB)) (b2 b3 : Byte) :
    (decodeTables b0 b1 b2 b3).outline = (decodeTables b0 b1 0 0).outline := by
  by_cases hprefix : b0 ∈ prefixBytes
  case neg => rw [decodeTables_outline hprefix, decodeTables_outline hprefix b1]
  case pos =>
    simp only [prefixBytes, List.mem_cons, List.not_mem_nil, or_false] at hprefix
    obtain rfl | rfl | rfl | rfl := hprefix
    · rfl
    · exact decodeED_outline b1 b2 b3
    · have hb1 : b1 ≠ 0xCB := fun hb1 => h ⟨.inl rfl, hb1⟩
      rw [decodeTables_DD_of_ne hb1, decodeTables_DD_of_ne hb1]
      exact decodeDD_outline b1 b2 b3
    · have hb1 : b1 ≠ 0xCB := fun hb1 => h ⟨.inr rfl, hb1⟩
      rw [decodeTables_FD_of_ne hb1, decodeTables_FD_of_ne hb1]
      exact decodeFD_outline b1 b2 b3

/-- Settles O6: the count of an instruction from the round trip, of a refusal from `decode_refusal`, and what it depends on
from the outline. -/
theorem bytesFetched : Obligations.BytesFetched := by
  refine ⟨encode_length_bounds, fun p b0 b1 b2 b3 => ?count, fun p b0 b1 b2 b3 c1 c2 c3 h => ?base,
    fun p b0 b1 b2 b3 c2 c3 h => ?prefixed⟩
  case base => rw [decode_length, decode_length, decodeTables_outline h, decodeTables_outline h c1]
  case prefixed => rw [decode_length, decode_length, decodeTables_outline_prefixed h, decodeTables_outline_prefixed h c2]
  case count =>
    cases hdec : decode p b0 b1 b2 b3 with
    | ok i len => exact (encodeOfDecode p b0 b1 b2 b3 i len hdec).2.1
    | error why len =>
      rw [Decoded.eq_error_iff, decode_refusal] at hdec
      simp only [refusalOf, refusalCB, refusalED, refusalIndexed, refusalIndexedCB, refusalBase] at hdec
      split_ifs at hdec
      all_goals cases hdec
      all_goals simp_all

/-- Settles O20: each address is a word plus a sign-extended byte. -/
theorem displacementsAreSigned : Obligations.DisplacementsAreSigned := fun s d =>
  ⟨Machine.word_add_sext16 s.ix d, Machine.word_add_sext16 s.iy d, Machine.word_add_sext16 s.pc d⟩

/-- Settles O1: by running the decoder on the words. -/
theorem wordsDecodeAsTabled : Obligations.WordsDecodeAsTabled := by
  unfold Obligations.WordsDecodeAsTabled
  decide

end Sys2Proof

/-!
PROOFS of the statements of 40_alu_helpers.md: 8-bit and 16-bit arithmetic and logic (O36 to O42), the register rotates
(O44), DAA (O54, O55) and the conditions (O21). Each instruction is first read as one of the shared operations `aluA`,
`aluFlags`, `incMem`, `rotateR` and so on: for a list of forms, what they answer is the same list as what the operation
answers (`List.map_inj_left`). What it computes is then the helper's law in whole numbers (`add8_exact` and its like), and
what it leaves unchanged is the operation's frame.
-/
namespace Sys2Proof.Machine

/-! ## 8-bit arithmetic and logic (R142 to R147, R156) -/

theorem State.aluFlags_unchanged (s : State) (o : Alu8) : Unchanged (withUnspecified sixFlags) s (s.aluFlags o) :=
  s.writeFlags_sixFlags 0 _

theorem State.aluA_unchanged (s : State) (o : Alu8) : Unchanged (withUnspecified (.a :: sixFlags)) s (s.aluA o) :=
  (s.setR_unchanged .a o.res).thenFlags (State.aluFlags_unchanged _ o)

/-- R142, R250: A and F after an addition. -/
theorem State.aluA_adds (s : State) (g : Gen) (v : Byte) (cin : Bool) :
    AddsExactly g s.a v cin (s.aluA (add8 g s.a v cin)).a (s.aluA (add8 g s.a v cin)).f := add8_exact g s.a v cin _ _

/-- R143, R250: A and F after a subtraction. -/
theorem State.aluA_subtracts (s : State) (g : Gen) (v : Byte) (cin : Bool) :
    SubtractsExactly g s.a v cin (s.aluA (sub8 g s.a v cin)).a (s.aluA (sub8 g s.a v cin)).f := sub8_exact g s.a v cin _ _

/-- Settles O36: all ten forms are `aluA` of `add8`. -/
theorem addForms : Obligations.AddForms := by
  intro s rs n d add hmem
  have hexec : exec add.1 s = .next (s.aluA (add8 s.params.gen s.a add.2.1 add.2.2)) := by
    revert add
    exact List.map_inj_left.mp rfl
  exact ⟨_, hexec, s.aluA_adds _ _ _, s.aluA_unchanged _⟩

/-- Settles O37: SUB and SBC are `aluA` of `sub8`, and CP is its flags alone. -/
theorem subtractAndCompareForms : Obligations.SubtractAndCompareForms := by
  refine fun s rs n d => ⟨fun sub hmem => ?subtract, fun cmp hmem => ?compare⟩
  case subtract =>
    have hexec : exec sub.1 s = .next (s.aluA (sub8 s.params.gen s.a sub.2.1 sub.2.2)) := by
      revert sub
      exact List.map_inj_left.mp rfl
    exact ⟨_, hexec, s.aluA_subtracts _ _ _, s.aluA_unchanged _⟩
  case compare =>
    have hexec : exec cmp.1 s = .next (s.aluFlags (sub8 s.params.gen s.a cmp.2 false)) := by
      revert cmp
      exact List.map_inj_left.mp rfl
    refine ⟨_, hexec, ?_, sub8_z s.params.gen _ _, s.aluFlags_unchanged _⟩
    rw [← sub8_res s.params.gen]
    exact sub8_exact _ _ _ _ _ _

/-- R147: S, Z and PV after a logic operation are those of its result. -/
theorem logic8_byteFlags (op : LogicOp) (a v : Byte) (x5 x3 : Bool) :
    ByteFlags (logic8 op a v).res ((logic8 op a v).inFlags x5 x3) :=
  ByteFlags.of_eq rfl rfl rfl

/-- Settles O38: all fifteen forms are `aluA` of `logic8`. -/
theorem logicForms : Obligations.LogicForms := by
  intro s rs n d operand hmem
  have hexec : (exec operand.1 s, exec operand.2.1 s, exec operand.2.2.1 s) =
      (.next (s.aluA (logic8 .and s.a operand.2.2.2)), .next (s.aluA (logic8 .xor s.a operand.2.2.2)),
        .next (s.aluA (logic8 .or s.a operand.2.2.2))) := by
    revert operand
    exact List.map_inj_left.mp rfl
  simp only [Prod.mk.injEq] at hexec
  obtain ⟨hand, hxor, hor⟩ := hexec
  refine ⟨⟨_, hand, fun _ _ => BitVec.getLsbD_and, ?_⟩, ⟨_, hxor, fun _ _ => BitVec.getLsbD_xor, ?_⟩,
    ⟨_, hor, fun _ _ => BitVec.getLsbD_or, ?_⟩⟩
  all_goals exact ⟨logic8_byteFlags _ _ _ _ _, rfl, rfl, rfl, s.aluA_unchanged _⟩

theorem State.getR_incFlags (s : State) (o : Inc8) (k : Reg) : (s.incFlags o).getR k = s.getR k := by cases k <;> rfl

theorem State.readByte_incFlags (s : State) (o : Inc8) (addr : Word) : (s.incFlags o).readByte addr = s.readByte addr := rfl

/-- R284, R287: INC and DEC of a memory byte leave Carry and every register. -/
theorem State.writeByte_incFlags_unchanged (s : State) (addr : Word) (v : Byte) (o : Inc8) :
    Unchanged (withUnspecified (.memory :: flagsButCarry)) s ((s.writeByte addr v).incFlags o) :=
  (s.writeByte_unchanged addr v).thenFlags (State.writeFlags_keepsCarry 0 rfl)

/-- Settles O39: the byte written is `inc8` or `dec8` of the byte read, and its flags are theirs. -/
theorem incrementAndDecrementForms : Obligations.IncrementAndDecrementForms := by
  refine fun s d => ⟨fun rd => ⟨_, rfl, ?incReg⟩, fun inc hmem => ?incMemory, fun rd => ⟨_, rfl, ?decReg⟩,
    fun dec hmem => ?decMemory⟩
  case incReg =>
    obtain ⟨hres, hs, hz, hh, hpv, hn⟩ := inc8_exact s.params.gen (s.getR rd)
    rw [State.getR_incFlags, State.getR_setR_same]
    exact ⟨hres, hs, hz, hh, hpv, hn, exec_unchanged (i := .incR rd) rfl⟩
  case incMemory =>
    have hexec : exec inc.1 s = .next (s.incMem inc.2) := by
      revert inc
      exact List.map_inj_left.mp rfl
    obtain ⟨hres, hs, hz, hh, hpv, hn⟩ := inc8_exact s.params.gen (s.readByte inc.2)
    refine ⟨_, hexec, ?_⟩
    rw [State.incMem, State.readByte_incFlags, State.readByte_writeByte_same]
    exact ⟨hres, hs, hz, hh, hpv, hn, s.writeByte_outside inc.2 _, s.writeByte_incFlags_unchanged inc.2 _ _⟩
  case decReg =>
    obtain ⟨hres, hs, hz, hh, hpv, hn⟩ := dec8_exact s.params.gen (s.getR rd)
    rw [State.getR_incFlags, State.getR_setR_same]
    exact ⟨hres, hs, hz, hh, hpv, hn, exec_unchanged (i := .decR rd) rfl⟩
  case decMemory =>
    have hexec : exec dec.1 s = .next (s.decMem dec.2) := by
      revert dec
      exact List.map_inj_left.mp rfl
    obtain ⟨hres, hs, hz, hh, hpv, hn⟩ := dec8_exact s.params.gen (s.readByte dec.2)
    refine ⟨_, hexec, ?_⟩
    rw [State.decMem, State.readByte_incFlags, State.readByte_writeByte_same]
    exact ⟨hres, hs, hz, hh, hpv, hn, s.writeByte_outside dec.2 _, s.writeByte_incFlags_unchanged dec.2 _ _⟩

/-- R142: without a carry in, the result is the sum of the two bytes. -/
theorem add8_res (g : Gen) (a v : Byte) : (add8 g a v false).res = a + v := by
  apply BitVec.eq_of_toNat_eq
  simp only [add8, BitVec.toNat_add, BitVec.toNat_ofNat, Bool.toNat_false, Nat.add_zero]

/-- Settles O40: both results are those of the bytes' own arithmetic. -/
theorem subtractUndoesAdd : Obligations.SubtractUndoesAdd := by
  intro g a b
  rw [sub8_res, add8_res, BitVec.add_sub_cancel]

/-! ## 16-bit arithmetic (R148 to R150) -/

theorem State.hl_setHL_add16Flags (s : State) (v : Word) (o : Add16) : ((s.setHL v).add16Flags o).hl = v := s.hl_setHL v

theorem State.hl_setHL_alu16Flags (s : State) (v : Word) (o : Alu16) : ((s.setHL v).alu16Flags o).hl = v := s.hl_setHL v

/-- Settles O41: the three destinations take the result of `add16`, and the flags are its. -/
theorem wordAdds : Obligations.WordAdds := by
  refine fun s ss pp rr => ⟨⟨_, rfl, ?HL⟩, ⟨_, rfl, ?IX⟩, ⟨_, rfl, ?IY⟩⟩
  case HL =>
    obtain ⟨hres, hh, hn, hc⟩ := add16_exact s.hl (s.getSS ss)
    rw [State.hl_setHL_add16Flags]
    exact ⟨hres, hh, hn, hc, exec_unchanged (i := .addHLSS ss) rfl⟩
  case IX =>
    obtain ⟨hres, hh, hn, hc⟩ := add16_exact s.ix (s.getPP pp)
    exact ⟨hres, hh, hn, hc, exec_unchanged (i := .addIXPP pp) rfl⟩
  case IY =>
    obtain ⟨hres, hh, hn, hc⟩ := add16_exact s.iy (s.getRR rr)
    exact ⟨hres, hh, hn, hc, exec_unchanged (i := .addIYRR rr) rfl⟩

/-- Settles O42: HL takes the result of `adc16` or `sbc16`, and the flags are theirs. -/
theorem wordCarryArithmetic : Obligations.WordCarryArithmetic := by
  refine fun s ss => ⟨⟨_, rfl, ?add⟩, ⟨_, rfl, ?subtract⟩⟩
  case add =>
    obtain ⟨hres, hs, hz, hh, hpv, hn, hc⟩ := adc16_exact s.hl (s.getSS ss) s.f.c
    rw [State.hl_setHL_alu16Flags]
    exact ⟨hres, hs, hz, hh, hpv, hn, hc, exec_unchanged (i := .adcHLSS ss) rfl⟩
  case subtract =>
    obtain ⟨hres, hs, hz, hh, hpv, hn, hc⟩ := sbc16_exact s.hl (s.getSS ss) s.f.c
    rw [State.hl_setHL_alu16Flags]
    exact ⟨hres, hs, hz, hh, hpv, hn, hc, exec_unchanged (i := .sbcHLSS ss) rfl⟩

/-! ## Rotates and shifts (R151) -/

/-- R308: the register rotated holds the result. -/
theorem State.getR_rotateR (s : State) (kind : RotKind) (r : Reg) :
    (s.rotateR kind r).getR r = (rot8 kind (s.getR r) s.f.c).res := by
  cases r <;> rfl

/-- R301 to R304: an accumulator rotate leaves S, Z and PV. -/
theorem State.rotateA_unchanged (s : State) (kind : RotKind) :
    Unchanged (withUnspecified [.a, .flagH, .flagN, .flagC]) s (s.rotateA kind) :=
  (s.setR_unchanged .a _).thenFlags (State.writeFlags_keepsSZP 0 rfl rfl rfl)

/-- R308: a register's rotate writes it and the six flags. -/
theorem State.rotateR_unchanged (s : State) (kind : RotKind) (r : Reg) :
    Unchanged (withUnspecified (r.field :: sixFlags)) s (s.rotateR kind r) :=
  (s.setR_unchanged r _).thenFlags (State.writeFlags_sixFlags _ 0 _)

/-- Settles O44: the accumulator's rotates are `rotateA`, a register's `rotateR`; both put in place what `rot8` returns. -/
theorem registerRotates : Obligations.RegisterRotates := by
  refine fun s rs => ⟨fun rot hmem => ?accumulator, fun rot hmem => ?register⟩
  case accumulator =>
    have hexec : exec rot.1 s = .next (s.rotateA rot.2) := by
      revert rot
      exact List.map_inj_left.mp rfl
    exact ⟨_, hexec, rot8_exact rot.2 s.a s.f.c, rfl, rfl, s.rotateA_unchanged rot.2⟩
  case register =>
    have hexec : exec rot.1 s = .next (s.rotateR rot.2 rs) := by
      revert rot
      exact List.map_inj_left.mp rfl
    refine ⟨_, hexec, ?_⟩
    rw [State.getR_rotateR]
    exact ⟨rot8_exact rot.2 (s.getR rs) s.f.c, ByteFlags.of_eq rfl rfl rfl, rfl, rfl, s.rotateR_unchanged rot.2 rs⟩

/-! ## DAA (R152, R153) -/

/-- R153: the adjustment that the statements name is the model's. -/
theorem daaCorrection_eq (s : State) : daaCorrection s.a s.f.c s.f.h = daaAdjust s := rfl

/-- R153: after an addition A gets the adjustment, and H says that the low digit was above 9. -/
theorem State.daaResult_of_add {s : State} (hn : s.f.n = false) :
    s.daaResult.res.toNat = (s.a.toNat + daaAdjust s) % 256 ∧ (s.daaResult.h = true ↔ 9 < s.a.toNat % 16) := by
  simp only [State.daaResult, daa, hn]
  exact ⟨BitVec.toNat_ofNat _ 8, decide_eq_true_iff⟩

/-- R153: after a subtraction A loses the adjustment, and H stays where the low digit was below 6. -/
theorem State.daaResult_of_subtract {s : State} (hn : s.f.n = true) :
    (s.daaResult.res.toNat : Int) = ((s.a.toNat : Int) - daaAdjust s) % 256 ∧
      (s.daaResult.h = true ↔ s.f.h = true ∧ s.a.toNat % 16 < 6) := by
  simp only [State.daaResult, daa, hn, daaCorrection_eq]
  refine ⟨?_, decide_eq_true_iff⟩
  rw [BitVec.toNat_ofInt]
  omega

theorem State.daaResult_c (s : State) : s.daaResult.c = true ↔ s.f.c = true ∨ 0x99 < s.a.toNat := decide_eq_true_iff

/-- R152: a row of the table holds where its addend is the adjustment after an addition, and makes 256 with it, or is 0 with
it, after a subtraction. -/
theorem State.daaResult_of_row {s : State} {addend : Nat} {carry : Bool} (hadd : s.f.n = false → daaAdjust s = addend)
    (hsub : s.f.n = true → (daaAdjust s + addend) % 256 = 0)
    (hcarry : carry = true ↔ s.f.c = true ∨ 0x99 < s.a.toNat) :
    s.daaResult.res.toNat = (s.a.toNat + addend) % 256 ∧ s.daaResult.c = carry := by
  refine ⟨?_, Bool.eq_iff_iff.mpr (s.daaResult_c.trans hcarry.symm)⟩
  cases hn : s.f.n with
  | false => rw [(State.daaResult_of_add hn).1, hadd hn]
  | true =>
    have hres := (State.daaResult_of_subtract hn).1
    have hzero := hsub hn
    omega

/-- Settles O54: on a row of the table, whose digit ranges settle both tests of the adjustment, by that row's addend. -/
theorem daaFollowsItsTable : Obligations.DaaFollowsItsTable := by
  intro s
  refine ⟨_, rfl, ByteFlags.of_eq rfl rfl rfl, exec_unchanged (i := .daa) rfl, State.daaResult_of_add,
    State.daaResult_of_subtract, s.daaResult_c, ?rows⟩
  simp only [List.forall_mem_cons]
  refine ⟨?_, ?_, ?_, ?_, ?_, ?_, ?_, ?_, ?_, ?_, ?_, ?_, ?_, nofun⟩
  all_goals
    intro hn hc hh hhiMin hhiMax hloMin hloMax
    refine State.daaResult_of_row ?_ ?_ ?_
  all_goals grind [daaAdjust]

/-- R153: DAA's carry as a digit, from what the carry before it says. -/
theorem State.daaResult_carry {s : State} {carried : Prop} [Decidable carried] (hc : s.f.c = true ↔ carried) :
    s.daaResult.c.toNat = if carried ∨ 0x99 < s.a.toNat then 1 else 0 := by
  rw [if_congr ((or_congr_left hc).symm.trans s.daaResult_c.symm) rfl rfl]
  cases s.daaResult.c <;> rfl

/-- R153: the adjustment from what H says, its 0x60 from DAA's own carry. -/
theorem daaAdjust_eq {s : State} {halfCarried : Prop} [Decidable halfCarried] (hh : s.f.h = true ↔ halfCarried) :
    daaAdjust s = (if halfCarried ∨ 9 < s.a.toNat % 16 then 6 else 0) + s.daaResult.c.toNat * 96 := by
  rw [State.daaResult_carry Iff.rfl, ite_mul, one_mul, zero_mul, daaAdjust, if_congr (or_congr_left hh) rfl rfl]

/-- R142, R153 in whole numbers: the binary sum of two packed-BCD bytes, adjusted, is their decimal sum with its carry. -/
theorem bcd_of_adjusted_sum {a v cin sum adjust carry res : Nat} (ha : a / 16 ≤ 9 ∧ a % 16 ≤ 9)
    (hv : v / 16 ≤ 9 ∧ v % 16 ≤ 9) (hcin : cin ≤ 1) (hsum : sum = (a + v + cin) % 256)
    (hadjust : adjust = (if 16 ≤ a % 16 + v % 16 + cin ∨ 9 < sum % 16 then 6 else 0) + carry * 96)
    (hcarry : carry = if 256 ≤ a + v + cin ∨ 0x99 < sum then 1 else 0) (hres : res = (sum + adjust) % 256) :
    (res / 16 ≤ 9 ∧ res % 16 ≤ 9) ∧
      res / 16 * 10 + res % 16 + 100 * carry = a / 16 * 10 + a % 16 + (v / 16 * 10 + v % 16) + cin := by
  split_ifs at hadjust hcarry <;> omega

/-- R143, R153 in whole numbers: the same of the binary difference, with its borrow. -/
theorem bcd_of_adjusted_difference {a v cin diff adjust carry res : Nat} (ha : a / 16 ≤ 9 ∧ a % 16 ≤ 9)
    (hv : v / 16 ≤ 9 ∧ v % 16 ≤ 9) (hcin : cin ≤ 1) (hdiff : (diff : Int) = ((a : Int) - v - cin) % 256)
    (hadjust : adjust = (if a % 16 < v % 16 + cin ∨ 9 < diff % 16 then 6 else 0) + carry * 96)
    (hcarry : carry = if a < v + cin ∨ 0x99 < diff then 1 else 0) (hres : (res : Int) = ((diff : Int) - adjust) % 256) :
    (res / 16 ≤ 9 ∧ res % 16 ≤ 9) ∧
      ((res / 16 * 10 + res % 16 : Nat) : Int) - 100 * carry =
        ((a / 16 * 10 + a % 16 : Nat) : Int) - (v / 16 * 10 + v % 16 : Nat) - cin := by
  split_ifs at hadjust hcarry <;> omega

/-- Settles O55: ADC and SBC leave A and F as `add8` and `sub8` say, and DAA makes that decimal. -/
theorem daaMakesArithmeticDecimal : Obligations.DaaMakesArithmeticDecimal := by
  refine fun s rs ha hv => ⟨⟨_, rfl, ?sum⟩, ⟨_, rfl, ?difference⟩⟩
  case sum =>
    obtain ⟨hsum, -, -, hh, -, hn, hc⟩ := s.aluA_adds s.params.gen (s.getR rs) s.f.c
    exact bcd_of_adjusted_sum ha hv (carry_le _) hsum (daaAdjust_eq hh) (State.daaResult_carry hc)
      (State.daaResult_of_add hn).1
  case difference =>
    obtain ⟨hdiff, -, -, hh, -, hn, hc⟩ := s.aluA_subtracts s.params.gen (s.getR rs) s.f.c
    exact bcd_of_adjusted_difference ha hv (carry_le _) hdiff (daaAdjust_eq hh) (State.daaResult_carry hc)
      (State.daaResult_of_subtract hn).1

/-! ## Conditions (R155) -/

/-- Settles O21: code by code. -/
theorem conditionsTestTheirFlags : Obligations.ConditionsTestTheirFlags := by
  refine fun s => ⟨rfl, rfl, rfl, rfl, rfl, rfl, rfl, rfl, fun cc => ?_⟩
  cases cc <;> rfl

end Sys2Proof.Machine

/-!
PROOFS of the statements of 41_load_store.md: the 8-bit loads and stores (O22, O23), the 16-bit loads and stores (O24 to
O26), the stack (O27 to O29), and I and R (O31). The forms of a list are first read as one operation, `setR`, `writeByte`,
`writeWord` or `push16` (`List.map_inj_left`); what that leaves in the state is then the operation's law and its frame.
Pushes and pops that bracket each other are `saveRestore`, by induction on the pairs.
-/
namespace Sys2Proof.Machine

/-! ## 8-bit loads and stores (R171 to R185) -/

/-- Settles O22: all eight forms write a register through its field. -/
theorem byteLoads : Obligations.ByteLoads := by
  intro s rd rs n d nn load hmem
  have hexec : exec load.1 s = .next (s.setR load.2.1 load.2.2) := by
    revert load
    exact List.map_inj_left.mp rfl
  exact ⟨_, hexec, s.getR_setR_same _ _, s.setR_unchanged _ _⟩

/-- Settles O23: all nine forms write one byte of memory. -/
theorem byteStores : Obligations.ByteStores := by
  intro s rs n d nn store hmem
  have hexec : exec store.1 s = .next (s.writeByte store.2.1 store.2.2) := by
    revert store
    exact List.map_inj_left.mp rfl
  exact ⟨_, hexec, s.readByte_writeByte_same _ _, s.writeByte_outside _ _, s.writeByte_unchanged _ _⟩

/-! ## 16-bit loads and stores (R186 to R195) -/

/-- Settles O24: each form writes one pair, or one of IX, IY and SP. -/
theorem wordRegisterLoads : Obligations.WordRegisterLoads := fun s ss nn =>
  ⟨⟨_, rfl, s.getSS_setSS ss nn, s.setSS_unchanged ss nn⟩,
    ⟨_, rfl, rfl, s.setIX_unchanged nn⟩,
    ⟨_, rfl, rfl, s.setIY_unchanged nn⟩,
    ⟨_, rfl, joinBytes_toNat s.h s.l, s.setSS_unchanged .sp s.hl⟩,
    ⟨_, rfl, rfl, s.setSS_unchanged .sp s.ix⟩,
    ⟨_, rfl, rfl, s.setSS_unchanged .sp s.iy⟩⟩

/-- Settles O25: each form loads `readWord`, whose high byte is the one at the higher address. -/
theorem wordMemoryLoads : Obligations.WordMemoryLoads := by
  refine fun s ss nn hallowed => ⟨⟨_, State.afterWordAccess_of_allowed _ hallowed, ?HL⟩,
    ⟨_, State.afterWordAccess_of_allowed _ hallowed, ?SS⟩, ⟨_, State.afterWordAccess_of_allowed _ hallowed, ?IX⟩,
    ⟨_, State.afterWordAccess_of_allowed _ hallowed, ?IY⟩⟩
  case HL => exact ⟨loByte_joinBytes _ _, hiByte_joinBytes _ _, s.setSS_unchanged .hl _⟩
  case SS =>
    rw [State.getSS_setSS]
    exact ⟨s.readWord_toNat nn, s.setSS_unchanged ss _⟩
  case IX => exact ⟨s.readWord_toNat nn, s.setIX_unchanged _⟩
  case IY => exact ⟨s.readWord_toNat nn, s.setIY_unchanged _⟩

/-- Settles O26: all four forms are `writeWord`. -/
theorem wordMemoryStores : Obligations.WordMemoryStores := by
  intro s ss nn hallowed store hmem
  have hexec : exec store.1 s = s.afterWordAccess nn (s.writeWord nn store.2) := by
    revert store
    exact List.map_inj_left.mp rfl
  refine ⟨_, hexec.trans (State.afterWordAccess_of_allowed _ hallowed), ?_, ?_, s.writeWord_outside nn _,
    s.writeWord_unchanged nn _⟩
  · rw [State.writeWord_low, loByte_toNat]
  · rw [State.writeWord_high, hiByte_toNat]

/-! ## Push and pop (R206 to R209, R360) -/

/-- Settles O27: all three forms are `push16`. -/
theorem pushesStoreAWord : Obligations.PushesStoreAWord := by
  intro s qq hallowed push hmem
  have hexec : exec push.1 s = s.afterWordAccess (s.sp - 2) (s.push16 push.2) := by
    revert push
    exact List.map_inj_left.mp rfl
  refine ⟨_, hexec.trans (State.afterWordAccess_of_allowed _ hallowed), s.push16_sp _, ?_, ?_, s.push16_outside _,
    s.push16_unchanged _⟩
  · rw [State.push16_high, hiByte_toNat]
  · rw [State.push16_low, loByte_toNat]

theorem exec_pushQQ_of_allowed {s : State} (qq : RegQQ) (h : s.wordAllowed (s.sp - 2)) :
    exec (.pushQQ qq) s = .next (s.push16 (s.getQQ qq)) := State.afterWordAccess_of_allowed _ h

theorem exec_popQQ_of_allowed {s : State} (qq : RegQQ) (h : s.wordAllowed s.sp) :
    exec (.popQQ qq) s = .next (s.popSP.setQQ qq s.popValue) := State.afterWordAccess_of_allowed _ h

/-- Settles O28: each form loads `popValue`, the word at SP. -/
theorem popsLoadAWord : Obligations.PopsLoadAWord := by
  refine fun s qq hallowed => ⟨⟨_, exec_popQQ_of_allowed qq hallowed, State.setQQ_sp _ _ _, ?QQ⟩,
    ⟨_, State.afterWordAccess_of_allowed _ hallowed, rfl, s.readWord_toNat s.sp, ?IX⟩,
    ⟨_, State.afterWordAccess_of_allowed _ hallowed, rfl, s.readWord_toNat s.sp, ?IY⟩⟩
  case QQ =>
    rw [State.getQQ_setQQ]
    exact ⟨s.readWord_toNat s.sp, exec_unchanged (exec_popQQ_of_allowed qq hallowed)⟩
  case IX => exact exec_unchanged (i := .popIX) (State.afterWordAccess_of_allowed _ hallowed)
  case IY => exact exec_unchanged (i := .popIY) (State.afterWordAccess_of_allowed _ hallowed)

/-! ## Pushes undone by pops (R210) -/

theorem execAll_cons_of_next {i : Instr} {s t : State} (h : exec i s = .next t) (rest : List Instr) :
    execAll (i :: rest) s = execAll rest t := by rw [execAll, h]

theorem execAll_append_of_next {is : List Instr} {s t : State} (h : execAll is s = .next t) (rest : List Instr) :
    execAll (is ++ rest) s = execAll rest t := by
  induction is generalizing s with
  | nil => rw [Host.Outcome.next.inj h, List.nil_append]
  | cons i is ih =>
    rw [execAll] at h
    cases hi : exec i s with
    | next u =>
      rw [hi] at h
      rw [List.cons_append, execAll_cons_of_next hi, ih h]
    | fault why => rw [hi] at h; nomatch h
    | refused why => rw [hi] at h; nomatch h

/-- R210: pairs pushed one after the other and popped in reverse order. -/
def saveRestore : List RegQQ → List Instr
  | [] => []
  | qq :: rest => .pushQQ qq :: (saveRestore rest ++ [.popQQ qq])

/-- R360: the bytes that `n` pushes from SP on store. -/
def stackBytes (sp : Word) : Nat → List Word
  | 0 => []
  | n + 1 => [sp - 1, sp - 2] ++ stackBytes (sp - 2) n

/-- R360: `n` pushes store at most `2 * n` below SP. -/
theorem distance_of_mem_stackBytes {sp addr : Word} {n : Nat} (hn : 2 * n < 65536) (h : addr ∈ stackBytes sp n) :
    1 ≤ (sp - addr).toNat ∧ (sp - addr).toNat ≤ 2 * n := by
  induction n generalizing sp with
  | zero => nomatch h
  | succ n ih =>
    rcases List.mem_append.mp h with hown | hdeep
    · simp only [List.mem_cons, List.not_mem_nil, or_false] at hown
      rcases hown with rfl | rfl <;> bv_omega
    · have := ih (by omega) hdeep
      bv_omega

/-- R210: as long as they do not fill memory, pushes leave the word at SP. -/
theorem popValue_of_outside {s t : State} {n : Nat} (hn : 2 * n + 2 ≤ 65536) (hsp : t.sp = s.sp)
    (houtside : MemoryOutside (stackBytes s.sp n) s t) : t.popValue = s.popValue := by
  have hhigh : s.sp + 1 ∉ stackBytes s.sp n := fun hmem => by
    have := distance_of_mem_stackBytes (by omega) hmem
    bv_omega
  have hlow : s.sp ∉ stackBytes s.sp n := fun hmem => by
    have := distance_of_mem_stackBytes (by omega) hmem
    bv_omega
  rw [State.popValue, State.readWord, hsp, houtside _ hhigh, houtside _ hlow]
  rfl

/-- R210: pushes and pops in reverse order restore SP and the pairs, and store nowhere else than the pushes do. -/
theorem execAll_saveRestore (qqs : List RegQQ) (s : State) (hlen : 2 * qqs.length ≤ 65536)
    (hallowed : ∀ k < qqs.length, s.wordAllowed (s.sp - BitVec.ofNat 16 (2 * (k + 1)))) :
    ∃ t : State, execAll (saveRestore qqs) s = .next t ∧ t.sp = s.sp ∧ t.params = s.params ∧
      (∀ qq ∈ qqs, t.getQQ qq = s.getQQ qq) ∧ MemoryOutside (stackBytes s.sp qqs.length) s t := by
  induction qqs generalizing s with
  | nil => exact ⟨s, rfl, rfl, rfl, nofun, MemoryOutside.refl _ s⟩
  | cons qq rest ih =>
    rw [List.length_cons] at hlen hallowed
    have hpush : s.wordAllowed (s.sp - 2) := hallowed 0 (by omega)
    have hdeeper : ∀ k < rest.length,
        (s.push16 (s.getQQ qq)).wordAllowed ((s.push16 (s.getQQ qq)).sp - BitVec.ofNat 16 (2 * (k + 1))) := fun k hk => by
      have hk' := hallowed (k + 1) (by omega)
      rwa [show s.sp - BitVec.ofNat 16 (2 * (k + 1 + 1)) = s.sp - 2 - BitVec.ofNat 16 (2 * (k + 1)) by bv_omega] at hk'
    obtain ⟨u, hu, husp, huparams, hupairs, huoutside⟩ := ih (s.push16 (s.getQQ qq)) (by omega) hdeeper
    have hvalue : u.popValue = s.getQQ qq :=
      (popValue_of_outside (by omega) husp huoutside).trans (s.popValue_push16 _)
    have hpop : u.wordAllowed u.sp := by
      rw [State.wordAllowed, huparams, husp]
      exact hpush
    refine ⟨u.popSP.setQQ qq u.popValue, ?run, ?SP, ?params, ?pairs, ?memory⟩
    case run =>
      rw [saveRestore, execAll_cons_of_next (exec_pushQQ_of_allowed qq hpush), execAll_append_of_next hu,
        execAll_cons_of_next (exec_popQQ_of_allowed qq hpop), execAll]
    case SP => rw [State.setQQ_sp, State.popSP_sp, husp, State.push16_sp, BitVec.sub_add_cancel]
    case params => rw [State.setQQ_params, State.popSP_params, huparams, State.push16_params]
    case pairs =>
      intro other hother
      by_cases h : other = qq
      · rw [h, State.getQQ_setQQ, hvalue]
      · rw [State.getQQ_setQQ_other _ _ h]
        exact hupairs other (List.mem_of_ne_of_mem h hother)
    case memory =>
      intro addr haddr
      obtain ⟨hown, hdeep⟩ := not_or.mp fun h => haddr (List.mem_append.mpr h)
      rw [State.readByte_of_mem_eq (State.setQQ_mem _ _ _)]
      exact (huoutside addr hdeep).trans (s.push16_outside _ addr hown)

/-- Settles O29: one push and pop by what is pushed being popped, the four pairs as `saveRestore`. -/
theorem pushThenPop : Obligations.PushThenPop := by
  refine ⟨fun s qq qq' hallowed => ?one, fun s hallowed => ?four⟩
  case one =>
    have hpop : (s.push16 (s.getQQ qq)).wordAllowed (s.push16 (s.getQQ qq)).sp := hallowed
    refine ⟨(s.push16 (s.getQQ qq)).popSP.setQQ qq' (s.push16 (s.getQQ qq)).popValue, ?run, ?pair, ?SP⟩
    case run =>
      rw [execAll_cons_of_next (exec_pushQQ_of_allowed qq hallowed), execAll_cons_of_next (exec_popQQ_of_allowed qq' hpop),
        execAll]
    case pair => rw [State.getQQ_setQQ, State.popValue_push16]
    case SP => rw [State.setQQ_sp, State.popSP_sp, State.push16_sp, BitVec.sub_add_cancel]
  case four =>
    have hfour : ∀ k < 4, 2 * (k + 1) ∈ [2, 4, 6, 8] := by decide
    obtain ⟨t, ht, hsp, -, hpairs, -⟩ :=
      execAll_saveRestore [.bc, .de, .hl, .af] s (by decide) fun k hk => hallowed _ (hfour k hk)
    exact ⟨t, ht, hsp, hpairs .bc (by decide), hpairs .de (by decide), hpairs .hl (by decide), hpairs .af (by decide)⟩

/-! ## I and R (R202 to R205) -/

theorem State.refreshRead_of_perByte {s : State} (h : s.params.rRead = .perByte) : s.refreshRead = s.r := by
  rw [State.refreshRead, h]

/-- Settles O31: S and Z of `LD A,I` and `LD A,R` are read from the byte that A then holds. -/
theorem loadsOfIAndR : Obligations.LoadsOfIAndR := fun _ =>
  ⟨⟨_, rfl, rfl, exec_unchanged (i := .ldIA) rfl⟩,
    ⟨_, rfl, rfl, exec_unchanged (i := .ldRA) rfl⟩,
    ⟨_, rfl, rfl, bit7_iff _, byte_zero_iff _, rfl, rfl, exec_unchanged (i := .ldAI) rfl⟩,
    ⟨_, rfl, State.refreshRead_of_perByte, bit7_iff _, byte_zero_iff _, rfl, rfl, exec_unchanged (i := .ldAR) rfl⟩⟩

end Sys2Proof.Machine

/-!
PROOFS of the statements of 42_block_transfer_compare.md: block transfer (O32, O33), block compare (O34, O35), and the
repeated block input and output that use its repeat mechanism (O58). An upward and a downward instruction are first read as
one operation with a step of 1 or -1 (`List.map_inj_left`), a repeating one as iterations of its body (`repeat_countedOut`,
`repeat_compareDone`, `repeat_portsDone`). What `k` iterations leave is then an induction on `k`.
-/
namespace Sys2Proof.Machine

/-! ## The addresses of many iterations (R231) -/

theorem addrAfter_zero (start step : Word) : addrAfter start step 0 = start := by simp [addrAfter]

theorem addrAfter_add_step (start step : Word) (k : Nat) :
    addrAfter (start + step) step k = addrAfter start step (k + 1) := by
  unfold addrAfter
  rw [ofNat_succ_word, mul_add, mul_one, add_assoc]

/-- Moving by 1 or by -1 comes back to an address only after all 65536 of them. -/
theorem addrAfter_injective {start step : Word} (hstep : step = 1 ∨ step = -1) {j k : Nat} (hj : j < 65536) (hk : k < 65536)
    (h : addrAfter start step j = addrAfter start step k) : j = k := by
  unfold addrAfter at h
  rw [BitVec.add_right_inj] at h
  rcases hstep with rfl | rfl
  · simp only [one_mul] at h
    bv_omega
  · simp only [neg_mul, one_mul, neg_inj] at h
    bv_omega

/-- Iterations that each store at a moving pointer alone store at its first `k` places alone. -/
theorem MemoryOutside.iterate {pointer : State → Word} {body : State → State} {step : Word}
    (hpointer : ∀ s, pointer (body s) = pointer s + step) (hbody : ∀ s, MemoryOutside [pointer s] s (body s)) (k : Nat)
    (s : State) : MemoryOutside ((List.range k).map (addrAfter (pointer s) step)) s (body^[k] s) := by
  induction k with
  | zero => exact MemoryOutside.refl _ s
  | succ k ih =>
    intro addr haddr
    rw [List.range_succ, List.map_append, List.mem_append, not_or] at haddr
    obtain ⟨hearlier, hlast⟩ := haddr
    rw [Function.iterate_succ_apply', hbody _ addr, ih addr hearlier]
    rwa [pointer_iterate hpointer]

/-! ## Block transfer (R232 to R235) -/

theorem State.transferOnce_outside (step : Word) (s : State) : MemoryOutside [s.de] s (s.transferOnce step) :=
  s.writeByte_outside s.de (s.readByte s.hl)

/-- R232: PV says of any state whose flags a transfer writes whether its BC is not 0. -/
theorem State.transferFlags_pv (s : State) : s.transferFlags.f.pv = true ↔ s.bc ≠ 0 := decide_eq_true_iff

/-- Settles O32: both forms are `transferOnce`, which stores at DE alone. -/
theorem blockTransferOnce : Obligations.BlockTransferOnce := by
  intro s move hmem
  have hexec : exec move.1 s = .next (s.transferOnce move.2).transferFlags := by
    revert move
    exact List.map_inj_left.mp rfl
  exact ⟨_, hexec, s.readByte_writeByte_same _ _, s.transferOnce_outside move.2, s.transferOnce_hl move.2,
    s.transferOnce_de move.2, s.transferOnce_bc move.2, State.transferFlags_pv _, rfl, rfl,
    (s.transferOnce_unchanged _).thenFlags (State.transferFlags_unchanged _)⟩

/-- Settles O33: both forms are `countBC` iterations of `transferOnce`, whose memory is `copyAfter`. -/
theorem blockTransferRepeated : Obligations.BlockTransferRepeated := by
  intro s move hmem
  have hexec : exec move.1 s = .next ((State.transferOnce move.2)^[s.countBC] s).transferFlags := by
    rw [← (repeat_countedOut (State.transferOnce_bc move.2) s).1]
    revert move
    exact List.map_inj_left.mp rfl
  have hbc : ((State.transferOnce move.2)^[s.countBC] s).bc = 0 := by
    obtain ⟨-, -, hzero, -⟩ := s.countBC_spec
    rw [counter_iterate (State.transferOnce_bc move.2), hzero]
  exact ⟨_, hexec, State.readByte_transfer_iterate _ _ s,
    MemoryOutside.iterate (State.transferOnce_de _) (State.transferOnce_outside _) _ s, hbc,
    pointer_iterate (State.transferOnce_hl _) _ s, pointer_iterate (State.transferOnce_de _) _ s,
    decide_eq_false (not_not_intro hbc), rfl, rfl,
    (Unchanged.iterate (State.transferOnce_unchanged _) _ s).thenFlags (State.transferFlags_unchanged _)⟩

/-! ## Block compare (R236 to R239) -/

/-- R236 to R239: `t` is what comparing A with the byte `v` leaves of `s`, be it the first comparison or a later one: the
flags of the difference, PV from BC, Carry by `CPBLK_C`, and everything but BC and HL. -/
def ComparedWith (v : Byte) (s t : State) : Prop :=
  (t.f.z = true ↔ s.a = v) ∧ (t.f.s = true ↔ 128 ≤ (s.a - v).toNat) ∧ (t.f.h = true ↔ s.a.toNat % 16 < v.toNat % 16) ∧
  (t.f.pv = true ↔ t.bc ≠ 0) ∧ t.f.n = true ∧ (s.params.cpblkC = .compare → (t.f.c = true ↔ s.a.toNat < v.toNat)) ∧
  (s.params.cpblkC = .unchanged → t.f.c = s.f.c) ∧ Unchanged (withUnspecified (.b :: .c :: .h :: .l :: sixFlags)) s t

theorem State.compareOnce_carry_compare {s : State} (h : s.params.cpblkC = .compare) (step : Word) :
    (s.compareOnce step).f.c = s.compareHL.c := by
  change s.compareCarry = _
  rw [State.compareCarry, h]

theorem State.compareOnce_carry_unchanged {s : State} (h : s.params.cpblkC = .unchanged) (step : Word) :
    (s.compareOnce step).f.c = s.f.c := by
  change s.compareCarry = _
  rw [State.compareCarry, h]

/-- R236, R237: one comparison is with the byte at HL. -/
theorem State.compareOnce_comparedWith (step : Word) (s : State) :
    ComparedWith (s.readByte s.hl) s (s.compareOnce step) := by
  obtain ⟨-, hs, -, hh, -, -, hc⟩ := sub8_exact s.params.gen s.a (s.readByte s.hl) false false false
  rw [sub8_res] at hs
  refine ⟨sub8_z s.params.gen _ _, hs, hh, ?pv, rfl, fun hcompare => ?carry,
    fun hkeep => State.compareOnce_carry_unchanged hkeep step, s.compareOnce_unchanged step⟩
  case pv =>
    rw [State.compareOnce_bc]
    exact decide_eq_true_iff
  case carry =>
    rw [State.compareOnce_carry_compare hcompare]
    exact hc

/-- A comparison before the last one leaves no trace in what the last one says. -/
theorem ComparedWith.of_compareOnce {v : Byte} {step : Word} {s t : State} (h : ComparedWith v (s.compareOnce step) t) :
    ComparedWith v s t := by
  obtain ⟨hz, hs, hh, hpv, hn, hcompare, hkeep, hframe⟩ := h
  exact ⟨hz, hs, hh, hpv, hn, hcompare, fun hc => (hkeep hc).trans (State.compareOnce_carry_unchanged hc step),
    (s.compareOnce_unchanged step).trans hframe⟩

/-- R238, R239: the last of `k + 1` comparisons is with the byte `k` steps from HL. -/
theorem State.compare_iterate_comparedWith (step : Word) (k : Nat) (s : State) :
    ComparedWith (s.readByte (addrAfter s.hl step k)) s ((State.compareOnce step)^[k + 1] s) := by
  induction k generalizing s with
  | zero =>
    rw [addrAfter_zero]
    exact s.compareOnce_comparedWith step
  | succ k ih =>
    have hlater := ih (s.compareOnce step)
    rw [State.compareOnce_hl, addrAfter_add_step, State.readByte_of_mem_eq (s.compareOnce_mem step)] at hlater
    exact hlater.of_compareOnce

/-- Settles O34: both forms are `compareOnce`. -/
theorem blockCompareOnce : Obligations.BlockCompareOnce := by
  intro s scan hmem
  have hexec : exec scan.1 s = .next (s.compareOnce scan.2) := by
    revert scan
    exact List.map_inj_left.mp rfl
  exact ⟨_, hexec, s.compareOnce_hl _, s.compareOnce_bc _, s.compareOnce_comparedWith _⟩

/-- Settles O35: both forms are `k + 1` iterations of `compareOnce`; Z after each says whether it was a match. -/
theorem blockCompareRepeated : Obligations.BlockCompareRepeated := by
  intro s scan hmem
  have hexec : exec scan.1 s = .next (repeatUntil (State.compareOnce scan.2) State.compareDone repeatFuelBC s) := by
    revert scan
    exact List.map_inj_left.mp rfl
  obtain ⟨k, hk, hloop, -, hgo, hend⟩ := repeat_compareDone (State.compareOnce_bc scan.2) s
  rw [hloop] at hexec
  have hmatch : ∀ j, ((State.compareOnce scan.2)^[j + 1] s).f.z = true ↔ s.a = s.readByte (addrAfter s.hl scan.2 j) :=
    fun j => (s.compare_iterate_comparedWith scan.2 j).1
  refine ⟨_, k, hexec, hk, fun j hj heq => ?before, hend.imp_right fun hz => ((hmatch k).mp hz).symm,
    pointer_iterate (State.compareOnce_hl _) _ s, counter_iterate (State.compareOnce_bc _) _ s,
    s.compare_iterate_comparedWith _ k⟩
  case before => exact Bool.false_ne_true ((hgo j hj).symm.trans ((hmatch j).mpr heq.symm))

/-! ## Repeated block input and output (R418, R419, R422, R423) -/

/-- R418, R422: after as many iterations as B counts, B is 0, and Z and N are set. -/
theorem ports_iterate_done {body : State → State} (hbody : ∀ s, (body s).b = s.b - 1) (s : State) :
    (body^[s.countB] s).blockIoFlags.b = 0 ∧ (body^[s.countB] s).blockIoFlags.f.z = true ∧
      (body^[s.countB] s).blockIoFlags.f.n = true := by
  obtain ⟨-, -, hzero, -⟩ := s.countB_spec
  have hb : (body^[s.countB] s).b = 0 := by rw [counter_iterate (counter := State.b) hbody, hzero]
  exact ⟨hb, decide_eq_true hb, rfl⟩

theorem State.blockIoFlags_unchanged (s : State) : Unchanged (withUnspecified flagsButCarry) s s.blockIoFlags :=
  State.writeFlags_keepsCarry 3 rfl

/-- R416, R417: the bytes that `k` iterations of block input read, in order. -/
def State.bytesIn (s : State) (step : Word) (k : Nat) : List Byte :=
  (List.range k).map fun j => ((State.inputOnce step)^[j] s).portValue s.c

theorem State.bytesIn_length (s : State) (step : Word) (k : Nat) : (s.bytesIn step k).length = k := by
  rw [State.bytesIn, List.length_map, List.length_range]

theorem State.bytesIn_getElem? (s : State) (step : Word) {j k : Nat} (h : j < k) :
    (s.bytesIn step k)[j]? = some (((State.inputOnce step)^[j] s).portValue s.c) := by
  rw [State.bytesIn, List.getElem?_map, List.getElem?_range h, Option.map_some]

theorem State.bytesIn_take (s : State) (step : Word) {j k : Nat} (h : j ≤ k) :
    (s.bytesIn step k).take j = s.bytesIn step j := by
  rw [State.bytesIn, ← List.map_take, List.take_range, Nat.min_eq_left h, State.bytesIn]

theorem State.inputOnce_outside (step : Word) (s : State) : MemoryOutside [s.hl] s (s.inputOnce step) :=
  State.writeByte_outside (s.recordIn s.c) s.hl (s.portValue s.c)

/-- R418, R419: one event for each iteration, in order. -/
theorem State.input_iterate_ioTrace (step : Word) (k : Nat) (s : State) :
    ((State.inputOnce step)^[k] s).ioTrace = s.ioTrace ++ (s.bytesIn step k).map (IoEvent.input s.c) := by
  induction k with
  | zero => simp [State.bytesIn]
  | succ k ih =>
    rw [Function.iterate_succ_apply', State.inputOnce_ioTrace, ih, iterate_keeps (State.inputOnce_c step)]
    simp [State.bytesIn, List.range_succ]

/-- R418, R419: until memory is used up, the byte stored by an iteration is not stored over by a later one. -/
theorem State.input_iterate_readByte {step : Word} (hstep : step = 1 ∨ step = -1) {k n : Nat} (hk : k < n) (hn : n ≤ 65536)
    (s : State) :
    ((State.inputOnce step)^[n] s).readByte (addrAfter s.hl step k) = ((State.inputOnce step)^[k] s).portValue s.c := by
  induction n with
  | zero => nomatch hk
  | succ n ih =>
    rw [Function.iterate_succ_apply', State.readByte_inputOnce, pointer_iterate (State.inputOnce_hl step),
      iterate_keeps (State.inputOnce_c step)]
    split
    case isTrue heq => rw [addrAfter_injective hstep (by omega) (by omega) heq]
    case isFalse hne =>
      have hlt : k < n := Nat.lt_of_le_of_ne (Nat.le_of_lt_succ hk) fun h => hne (h ▸ rfl)
      exact ih hlt (by omega)

/-- R422, R423: one event for each iteration, in order. -/
theorem State.output_iterate_ioTrace (step : Word) (k : Nat) (s : State) :
    ((State.outputOnce step)^[k] s).ioTrace =
      s.ioTrace ++ (List.range k).map (fun j => IoEvent.output s.c (s.readByte (addrAfter s.hl step j))) := by
  induction k with
  | zero => simp
  | succ k ih =>
    rw [Function.iterate_succ_apply', State.outputOnce_ioTrace, ih, iterate_keeps (State.outputOnce_c step),
      State.readByte_of_mem_eq (iterate_keeps (State.outputOnce_mem step) k s), pointer_iterate (State.outputOnce_hl step)]
    simp [List.range_succ]

/-- Settles O58: all four forms are `countB` iterations of `inputOnce` or `outputOnce`. -/
theorem blockPortTransferRepeated : Obligations.BlockPortTransferRepeated := by
  refine fun s => ⟨fun move hmem => ?input, fun move hmem => ?output⟩
  case input =>
    have hexec : exec move.1 s = .next ((State.inputOnce move.2)^[s.countB] s).blockIoFlags := by
      rw [← (repeat_portsDone (State.inputOnce_b move.2) s).1]
      revert move
      exact List.map_inj_left.mp rfl
    have hstep : move.2 = 1 ∨ move.2 = -1 := List.mem_pair.mp (List.mem_map_of_mem (f := Prod.snd) hmem)
    obtain ⟨-, hle, -, -⟩ := s.countB_spec
    obtain ⟨hb, hz, hn⟩ := ports_iterate_done (State.inputOnce_b move.2) s
    refine ⟨_, s.bytesIn move.2 s.countB, hexec, s.bytesIn_length _ _, s.input_iterate_ioTrace _ _,
      fun k hk => ⟨?answer, ?stored⟩, MemoryOutside.iterate (State.inputOnce_hl _) (State.inputOnce_outside _) _ s,
      pointer_iterate (State.inputOnce_hl _) _ s, hb, hz, hn,
      (Unchanged.iterate (State.inputOnce_unchanged _) _ s).thenFlags (State.blockIoFlags_unchanged _)⟩
    case answer =>
      rw [State.bytesIn_getElem? s _ hk, State.bytesIn_take s _ hk.le, ← State.input_iterate_ioTrace, State.portValue]
    case stored =>
      rw [State.bytesIn_getElem? s _ hk, ← State.input_iterate_readByte hstep hk (by omega)]
      rfl
  case output =>
    have hexec : exec move.1 s = .next ((State.outputOnce move.2)^[s.countB] s).blockIoFlags := by
      rw [← (repeat_portsDone (State.outputOnce_b move.2) s).1]
      revert move
      exact List.map_inj_left.mp rfl
    obtain ⟨hb, hz, hn⟩ := ports_iterate_done (State.outputOnce_b move.2) s
    exact ⟨_, hexec, s.output_iterate_ioTrace _ _, pointer_iterate (State.outputOnce_hl _) _ s, hb, hz, hn,
      (Unchanged.iterate (State.outputOnce_unchanged _) _ s).thenFlags (State.blockIoFlags_unchanged _)⟩

end Sys2Proof.Machine

/-!
PROOFS of the statement of 44_arith_16bit.md not settled above: INC and DEC of a pair (O43). Each form writes the pair's
successor or predecessor as a word, whose whole number wraps mod 65536, and writes nothing else.
-/
namespace Sys2Proof.Machine

/-! ## Increment and decrement of a pair (R157, R294, R295, R297, R298) -/

theorem word_add_one_toNat (w : Word) : (w + 1).toNat = (w.toNat + 1) % 65536 := BitVec.toNat_add w 1

theorem word_sub_one_toNat (w : Word) : (w - 1).toNat = (w.toNat + 65535) % 65536 := by
  rw [BitVec.toNat_sub, Nat.add_comm]
  rfl

/-- Settles O43: each form writes one pair, or one of IX and IY, and reads back what it wrote. -/
theorem wordIncrements : Obligations.WordIncrements := by
  refine fun s ss => ⟨⟨_, rfl, ?incSS, s.setSS_unchanged ss _⟩, ⟨_, rfl, ?decSS, s.setSS_unchanged ss _⟩,
    ⟨_, rfl, word_add_one_toNat s.ix, s.setIX_unchanged _⟩, ⟨_, rfl, word_sub_one_toNat s.ix, s.setIX_unchanged _⟩,
    ⟨_, rfl, word_add_one_toNat s.iy, s.setIY_unchanged _⟩, ⟨_, rfl, word_sub_one_toNat s.iy, s.setIY_unchanged _⟩⟩
  case incSS =>
    rw [State.getSS_setSS]
    exact word_add_one_toNat _
  case decSS =>
    rw [State.getSS_setSS]
    exact word_sub_one_toNat _

end Sys2Proof.Machine

/-!
PROOFS of the statements of 45_shift_rotate_bit.md not settled above: the rotates and shifts of a memory byte (O45), RRD
and RLD (O46), and BIT, SET and RES (O47). Each form is one of the shared operations `rotateMem`, `digitRotate`, `bitFlags`,
or a register or memory byte with one bit written; what is moved is the law of `rot8`, `joinNibbles` or the bit written.
-/
namespace Sys2Proof.Machine

/-! ## Rotates and shifts of a memory byte (R151, R309, R310) -/

/-- R309, R310: the byte rotated holds the result. -/
theorem State.readByte_rotateMem (s : State) (kind : RotKind) (addr : Word) :
    (s.rotateMem kind addr).readByte addr = (rot8 kind (s.readByte addr) s.f.c).res :=
  s.readByte_writeByte_same addr _

theorem State.rotateMem_outside (s : State) (kind : RotKind) (addr : Word) : MemoryOutside [addr] s (s.rotateMem kind addr) :=
  s.writeByte_outside addr _

theorem State.rotateMem_unchanged (s : State) (kind : RotKind) (addr : Word) :
    Unchanged (withUnspecified (.memory :: sixFlags)) s (s.rotateMem kind addr) :=
  (s.writeByte_unchanged addr _).thenFlags (State.writeFlags_sixFlags _ 0 _)

/-- Settles O45: all 21 forms are `rotateMem` at their address, which puts in place what `rot8` returns. -/
theorem memoryRotates : Obligations.MemoryRotates := by
  intro s d rot hmem
  have hexec : exec rot.1 s = .next (s.rotateMem rot.2.1 rot.2.2) := by
    revert rot
    exact List.map_inj_left.mp rfl
  refine ⟨_, hexec, ?_⟩
  rw [State.readByte_rotateMem]
  exact ⟨rot8_exact rot.2.1 _ s.f.c, ByteFlags.of_eq rfl rfl rfl, rfl, rfl, s.rotateMem_outside _ _,
    s.rotateMem_unchanged _ _⟩

/-! ## Digit rotates (R305, R306) -/

theorem highNibble_lt (v : Byte) : highNibble v < 16 := Nat.div_lt_of_lt_mul v.isLt

theorem lowNibble_lt (v : Byte) : lowNibble v < 16 := Nat.mod_lt _ (by decide)

theorem highNibble_joinNibbles {high low : Nat} (hh : high < 16) (hl : low < 16) :
    highNibble (joinNibbles high low) = high := by
  rw [highNibble, joinNibbles_toNat hh hl]
  omega

theorem lowNibble_joinNibbles {high low : Nat} (hh : high < 16) (hl : low < 16) :
    lowNibble (joinNibbles high low) = low := by
  rw [lowNibble, joinNibbles_toNat hh hl]
  omega

theorem joinNibbles_highNibble_lowNibble (v : Byte) : joinNibbles (highNibble v) (lowNibble v) = v := by
  apply BitVec.eq_of_toNat_eq
  rw [joinNibbles_toNat (highNibble_lt v) (lowNibble_lt v)]
  exact Nat.div_add_mod' v.toNat 16

/-- R305, R306: the byte at HL holds the new memory byte. -/
theorem State.readByte_digitRotate (s : State) (newMem newA : Byte) :
    (s.digitRotate newMem newA).readByte s.hl = newMem :=
  s.readByte_writeByte_same s.hl newMem

theorem State.digitRotate_outside (s : State) (newMem newA : Byte) :
    MemoryOutside [s.hl] s (s.digitRotate newMem newA) :=
  s.writeByte_outside s.hl newMem

/-- R305: the state that RRD answers, `exec_rrd`. -/
def State.afterRrd (s : State) : State :=
  s.digitRotate (joinNibbles (lowNibble s.a) (highNibble (s.readByte s.hl)))
    (joinNibbles (highNibble s.a) (lowNibble (s.readByte s.hl)))

theorem exec_rrd (s : State) : exec .rrd s = .next s.afterRrd := rfl

theorem State.afterRrd_hl (s : State) : s.afterRrd.hl = s.hl := rfl

theorem State.afterRrd_a (s : State) :
    s.afterRrd.a = joinNibbles (highNibble s.a) (lowNibble (s.readByte s.hl)) := rfl

theorem State.readByte_afterRrd (s : State) :
    s.afterRrd.readByte s.hl = joinNibbles (lowNibble s.a) (highNibble (s.readByte s.hl)) :=
  s.readByte_digitRotate _ _

theorem State.afterRrd_outside (s : State) : MemoryOutside [s.hl] s s.afterRrd := s.digitRotate_outside _ _

/-- R305: the nibbles that RRD moves, A's low one and the high and the low one of the byte at HL. -/
def State.digits (s : State) : Nat × Nat × Nat :=
  (lowNibble s.a, highNibble (s.readByte s.hl), lowNibble (s.readByte s.hl))

/-- R305: RRD moves the three nibbles one place on. -/
theorem State.digits_afterRrd (s : State) : s.afterRrd.digits = (s.digits.2.2, s.digits.1, s.digits.2.1) := by
  rw [State.digits, State.afterRrd_hl, State.readByte_afterRrd, State.afterRrd_a,
    lowNibble_joinNibbles (highNibble_lt _) (lowNibble_lt _), highNibble_joinNibbles (lowNibble_lt _) (highNibble_lt _),
    lowNibble_joinNibbles (lowNibble_lt _) (highNibble_lt _)]
  rfl

theorem State.highNibble_afterRrd_a (s : State) : highNibble s.afterRrd.a = highNibble s.a :=
  highNibble_joinNibbles (highNibble_lt _) (lowNibble_lt _)

/-- A and the byte at HL are determined by their four nibbles. -/
theorem State.a_and_readByte_hl_of_digits {s t : State} (hhigh : highNibble t.a = highNibble s.a)
    (hdigits : t.digits = s.digits) :
    t.a = s.a ∧ t.readByte t.hl = s.readByte s.hl := by
  simp only [State.digits, Prod.mk.injEq] at hdigits
  obtain ⟨hlow, hmemHigh, hmemLow⟩ := hdigits
  constructor
  · rw [← joinNibbles_highNibble_lowNibble t.a, hhigh, hlow, joinNibbles_highNibble_lowNibble]
  · rw [← joinNibbles_highNibble_lowNibble (t.readByte t.hl), hmemHigh, hmemLow, joinNibbles_highNibble_lowNibble]

/-- Settles O46: RRD and RLD are `digitRotate`; three RRDs move each of three nibbles back to its place. -/
theorem digitRotates : Obligations.DigitRotates := by
  refine fun s => ⟨⟨_, exec_rrd s, ?right⟩, ⟨_, rfl, ?left⟩, ⟨s.afterRrd.afterRrd.afterRrd, rfl, ?three⟩⟩
  case right =>
    rw [State.readByte_afterRrd]
    exact ⟨joinNibbles_toNat (highNibble_lt _) (lowNibble_lt _), joinNibbles_toNat (lowNibble_lt _) (highNibble_lt _),
      ByteFlags.of_eq rfl rfl rfl, rfl, rfl, s.afterRrd_outside, exec_unchanged (exec_rrd s)⟩
  case left =>
    rw [State.readByte_digitRotate]
    exact ⟨joinNibbles_toNat (highNibble_lt _) (highNibble_lt _), joinNibbles_toNat (lowNibble_lt _) (lowNibble_lt _),
      ByteFlags.of_eq rfl rfl rfl, rfl, rfl, s.digitRotate_outside _ _, s.digitRotate_unchanged _ _⟩
  case three =>
    have hhigh : highNibble s.afterRrd.afterRrd.afterRrd.a = highNibble s.a := by
      simp only [State.highNibble_afterRrd_a]
    have hdigits : s.afterRrd.afterRrd.afterRrd.digits = s.digits := by
      simp only [State.digits_afterRrd]
    obtain ⟨ha, hbyte⟩ := State.a_and_readByte_hl_of_digits hhigh hdigits
    have houtside : MemoryOutside [s.hl] s s.afterRrd.afterRrd.afterRrd :=
      (s.afterRrd_outside.trans s.afterRrd.afterRrd_outside).trans s.afterRrd.afterRrd.afterRrd_outside
    refine ⟨ha, fun addr => ?_⟩
    by_cases haddr : addr = s.hl
    · rw [haddr]
      exact hbyte
    · exact houtside addr fun hmem => haddr (List.mem_singleton.mp hmem)

/-! ## BIT, SET and RES (R307, R330 to R338) -/

/-- R307 (b): the complement of a bit, in whole numbers. -/
theorem not_getLsbD_iff (v : Byte) (k : Nat) : (!v.getLsbD k) = true ↔ v.toNat / 2 ^ k % 2 = 0 := by
  rw [BitVec.getLsbD, Nat.testBit_eq_decide_div_mod_eq, Bool.not_eq_true', decide_eq_false_iff_not]
  exact Nat.mod_two_ne_one

theorem State.bitFlags_unchanged (s : State) (tested : Bool) :
    Unchanged (withUnspecified flagsButCarry) s (s.bitFlags tested) :=
  State.writeFlags_keepsCarry 2 rfl

/-- R333, R336: one bit of a byte written, by SET to 1 and by RES to 0. -/
def writeBit (b : Fin 8) (v : Byte) : Bool → Byte
  | true => setBit b v
  | false => resetBit b v

/-- R307 (c): the bit written, and the seven others as they were. -/
theorem writeBit_getLsbD (b : Fin 8) (v : Byte) (on : Bool) :
    ∀ k < 8, (writeBit b v on).getLsbD k = if k = b.val then on else v.getLsbD k := by
  cases on with
  | true => exact setBit_getLsbD b v
  | false => exact resetBit_getLsbD b v

/-- Settles O47: BIT is `bitFlags` of the tested bit; SET and RES write `writeBit` of the byte they read. -/
theorem bitInstructions : Obligations.BitInstructions := by
  refine fun s b rs d => ⟨fun test hmem => ?bit, fun write hmem => ?register, fun write hmem => ?memory⟩
  case bit =>
    have hexec : exec test.1 s = .next (s.bitFlags (test.2.getLsbD b.val)) := by
      revert test
      exact List.map_inj_left.mp rfl
    exact ⟨_, hexec, not_getLsbD_iff test.2 b.val, rfl, rfl, s.bitFlags_unchanged _⟩
  case register =>
    have hexec : exec write.1 s = .next (s.setR rs (writeBit b (s.getR rs) write.2)) := by
      revert write
      exact List.map_inj_left.mp rfl
    refine ⟨_, hexec, ?_, s.setR_unchanged rs _⟩
    rw [State.getR_setR_same]
    exact writeBit_getLsbD b _ write.2
  case memory =>
    have hexec : exec write.1 s = .next (s.writeByte write.2.2 (writeBit b (s.readByte write.2.2) write.2.1)) := by
      revert write
      exact List.map_inj_left.mp rfl
    refine ⟨_, hexec, ?_, s.writeByte_outside _ _, s.writeByte_unchanged _ _⟩
    rw [State.readByte_writeByte_same]
    exact writeBit_getLsbD b _ write.2.1

end Sys2Proof.Machine

/-!
PROOFS of the statements of 46_jump_call_return.md: the jumps (O48), calls and restarts (O49) and returns (O50). A
conditional jump writes PC always, with PC itself where it is not taken. A call is `callTo`, which is a push of PC with PC
written after it, and a return is `popPC`; a conditional one is the plain one where its condition is true.
-/
namespace Sys2Proof.Machine

/-! ## Jumps (R352 to R358) -/

/-- R353: the PC that a conditional jump leaves, taken or not. -/
theorem exec_jpCC_next (cc : Cond) (nn : Word) (s : State) :
    exec (.jpCC cc nn) s = .next { s with pc := if s.cond cc = true then nn else s.pc } := by
  rw [exec_jpCC]
  split <;> rfl

/-- R357: the PC that a conditional relative jump leaves, taken or not. -/
theorem exec_jrCC_next (cc : CondJR) (e : Byte) (s : State) :
    exec (.jrCC cc e) s = .next { s with pc := if s.condJR cc = true then s.relTarget e else s.pc } := by
  rw [exec_jrCC]
  split <;> rfl

/-- R358: B is one less, and it is the new B that decides on PC. -/
theorem exec_djnz_next (e : Byte) (s : State) :
    exec (.djnz e) s = .next { s with b := s.b - 1, pc := if s.b - 1 = 0 then s.pc else s.relTarget e } := by
  rw [exec_djnz]
  split <;> rfl

/-- R113, R356: the target of a relative jump. -/
theorem State.relTarget_toNat (s : State) (e : Byte) : ((s.relTarget e).toNat : Int) = (s.pc.toNat + e.toInt) % 65536 :=
  word_add_sext16 s.pc e

theorem byte_sub_one_toNat (v : Byte) : (v - 1).toNat = (v.toNat + 255) % 256 := by
  rw [BitVec.toNat_sub, Nat.add_comm]
  rfl

/-- Settles O48: each jump writes PC alone, and DJNZ B besides. -/
theorem jumps : Obligations.Jumps := by
  refine fun s nn cc cj e => ⟨⟨_, rfl, rfl, s.setPC_unchanged nn⟩,
    ⟨_, exec_jpCC_next cc nn s, rfl, s.setPC_unchanged _⟩,
    ⟨_, rfl, joinBytes_toNat s.h s.l, s.setPC_unchanged s.hl⟩,
    ⟨_, rfl, rfl, s.setPC_unchanged s.ix⟩,
    ⟨_, rfl, rfl, s.setPC_unchanged s.iy⟩,
    ⟨_, rfl, s.relTarget_toNat e, s.setPC_unchanged _⟩,
    ⟨_, exec_jrCC_next cj e s, fun htaken => ?jrTaken, fun hnot => if_neg (Bool.eq_false_iff.mp hnot), s.setPC_unchanged _⟩,
    ⟨_, exec_djnz_next e s, byte_sub_one_toNat s.b, fun hb => ?djnzTaken, fun hb => if_pos hb,
      exec_unchanged (exec_djnz_next e s)⟩⟩
  case jrTaken => simpa only [if_pos htaken] using s.relTarget_toNat e
  case djnzTaken => simpa only [if_neg hb] using s.relTarget_toNat e

/-! ## Calls and restarts (R360 to R362, R368) -/

/-- R361: writing PC after the push leaves the memory that the push left. -/
theorem State.readByte_callTo (s : State) (target addr : Word) :
    (s.callTo target).readByte addr = (s.push16 s.pc).readByte addr := rfl

theorem State.callTo_outside (s : State) (target : Word) : MemoryOutside [s.sp - 1, s.sp - 2] s (s.callTo target) :=
  s.push16_outside s.pc

/-- Settles O49: all three forms are `callTo` where they are taken. -/
theorem calls : Obligations.Calls := by
  refine fun s nn cc n => ⟨fun hallowed call hmem htaken => ?taken, fun hnot => ?notTaken⟩
  case taken =>
    have hexec : exec call.1 s = s.afterWordAccess (s.sp - 2) (s.callTo call.2.1) := by
      simp only [List.mem_cons, List.not_mem_nil, or_false] at hmem
      rcases hmem with rfl | rfl | rfl
      · rfl
      · exact (exec_callCC cc nn s).trans (if_pos htaken)
      · rfl
    refine ⟨_, hexec.trans (State.afterWordAccess_of_allowed _ hallowed), rfl, rfl, ?_, ?_, s.callTo_outside _,
      s.callTo_unchanged _⟩
    · rw [State.readByte_callTo, State.push16_high, hiByte_toNat]
    · rw [State.readByte_callTo, State.push16_low, loByte_toNat]
  case notTaken => exact (exec_callCC cc nn s).trans (if_neg (Bool.eq_false_iff.mp hnot))

/-! ## Returns (R360, R363, R364, R369, R370) -/

/-- Settles O50: all four forms are `popPC` where they are taken, which loads the word at SP. -/
theorem returns : Obligations.Returns := by
  refine fun s cc => ⟨fun hallowed ret hmem htaken => ?taken, fun hnot => ?notTaken⟩
  case taken =>
    have hexec : exec ret.1 s = s.afterWordAccess s.sp s.popPC := by
      simp only [List.mem_cons, List.not_mem_nil, or_false] at hmem
      rcases hmem with rfl | rfl | rfl | rfl
      · rfl
      · exact (exec_retCC cc s).trans (if_pos htaken)
      · rfl
      · rfl
    exact ⟨_, hexec.trans (State.afterWordAccess_of_allowed _ hallowed), s.readWord_toNat s.sp, rfl, s.popPC_unchanged⟩
  case notTaken => exact (exec_retCC cc s).trans (if_neg (Bool.eq_false_iff.mp hnot))

end Sys2Proof.Machine

/-!
PROOFS of the statements of 47_exchange.md not settled above: EX DE,HL and the exchanges with the word at SP (O51), and
every exchange as an involution (O52). The three stack exchanges are one relation between two states, `SwapsTop`, with the
register as its parameter; that the relation met twice gives the register and every byte back is `SwapsTop.register_twice`
and `SwapsTop.memory_twice`.
-/
namespace Sys2Proof.Machine

/-! ## EX DE,HL (R381) -/

theorem exec_exDEHL (s : State) : exec .exDEHL s = .next { s with d := s.h, e := s.l, h := s.d, l := s.e } := by
  show Host.Outcome.next ((s.setDE (joinBytes s.h s.l)).setHL (joinBytes s.d s.e)) = _
  rw [State.setDE, State.setHL, hiByte_joinBytes, loByte_joinBytes, hiByte_joinBytes, loByte_joinBytes]

/-! ## The exchange of a register with the word at SP (R384, R385) -/

/-- R384, R385: between these states a register and the word at SP change places. SP stays, so that a second exchange
meets the word that the first one left, and its access has a meaning where that of the first had one. -/
structure SwapsTop (reg : State → Word) (s t : State) : Prop where
  register : reg t = s.readWord s.sp
  memory : ∀ addr, t.readByte addr = (s.writeWord s.sp (reg s)).readByte addr
  sp : t.sp = s.sp
  params : t.params = s.params

/-- R384, R385: wherever the word access at SP has a meaning, the instruction exchanges the register with that word. -/
def ExchangesTop (i : Instr) (reg : State → Word) : Prop :=
  ∀ s : State, s.wordAllowed s.sp → ∃ t : State, exec i s = .next t ∧ SwapsTop reg s t

theorem exAtSPHL_exchangesTop : ExchangesTop .exAtSPHL State.hl :=
  fun _ hallowed => ⟨_, State.afterWordAccess_of_allowed _ hallowed, State.hl_setHL _ _, fun _ => rfl, rfl, rfl⟩

theorem exAtSPIX_exchangesTop : ExchangesTop .exAtSPIX State.ix :=
  fun _ hallowed => ⟨_, State.afterWordAccess_of_allowed _ hallowed, rfl, fun _ => rfl, rfl, rfl⟩

theorem exAtSPIY_exchangesTop : ExchangesTop .exAtSPIY State.iy :=
  fun _ hallowed => ⟨_, State.afterWordAccess_of_allowed _ hallowed, rfl, fun _ => rfl, rfl, rfl⟩

section
variable {reg : State → Word} {s t : State} (h : SwapsTop reg s t)
include h

/-- R75: the byte at SP is the register's low one. -/
theorem SwapsTop.low : t.readByte s.sp = loByte (reg s) := (h.memory s.sp).trans (s.writeWord_low s.sp _)

/-- R75: the byte above SP is the register's high one. -/
theorem SwapsTop.high : t.readByte (s.sp + 1) = hiByte (reg s) := (h.memory _).trans (s.writeWord_high s.sp _)

theorem SwapsTop.outside : MemoryOutside [s.sp, s.sp + 1] s t :=
  fun addr haddr => (h.memory addr).trans (s.writeWord_outside s.sp _ addr haddr)

theorem SwapsTop.wordAllowed (hallowed : s.wordAllowed s.sp) : t.wordAllowed t.sp := by
  rwa [State.wordAllowed, h.params, h.sp]

/-- R386: the register's second value is the word at SP after the first exchange, which is what it held before. -/
theorem SwapsTop.register_twice {u : State} (h' : SwapsTop reg t u) : reg u = reg s := by
  rw [h'.register, h.sp, State.readWord, h.low, h.high, joinBytes_hiByte_loByte]

/-- R386: the second exchange stores the word at SP that the first one loaded, and neither stores elsewhere. -/
theorem SwapsTop.memory_twice {u : State} (h' : SwapsTop reg t u) (addr : Word) : u.readByte addr = s.readByte addr := by
  rw [h'.memory, h.sp, h.register, State.readByte_writeWord, State.readWord, hiByte_joinBytes, loByte_joinBytes]
  split
  · next hhigh => rw [hhigh]
  · next hhigh =>
    split
    · next hlow => rw [hlow]
    · next hlow => exact h.outside addr fun hmem => (List.mem_pair.mp hmem).elim hlow hhigh

end

/-- R385: the exchange in whole numbers, with its frame. -/
theorem ExchangesTop.exec_toNat {i : Instr} {reg : State → Word} (h : ExchangesTop i reg) {s : State}
    (hallowed : s.wordAllowed s.sp) :
    ∃ t : State, exec i s = .next t ∧ (reg t).toNat = (s.readByte (s.sp + 1)).toNat * 256 + (s.readByte s.sp).toNat ∧
      (t.readByte s.sp).toNat = (reg s).toNat % 256 ∧ (t.readByte (s.sp + 1)).toNat = (reg s).toNat / 256 ∧
      MemoryOutside [s.sp, s.sp + 1] s t ∧ Unchanged i.touched s t := by
  obtain ⟨t, hexec, hswap⟩ := h s hallowed
  refine ⟨t, hexec, ?register, ?low, ?high, hswap.outside, exec_unchanged hexec⟩
  case register => rw [hswap.register, State.readWord_toNat]
  case low => rw [hswap.low, loByte_toNat]
  case high => rw [hswap.high, hiByte_toNat]

/-- R386: what the exchange executed twice leaves. -/
theorem ExchangesTop.execAll_twice {i : Instr} {reg : State → Word} (h : ExchangesTop i reg) {s : State}
    (hallowed : s.wordAllowed s.sp) :
    ∃ u : State, execAll [i, i] s = .next u ∧ reg u = reg s ∧ (∀ addr, u.readByte addr = s.readByte addr) ∧
      Unchanged i.touched s u := by
  obtain ⟨t, ht, hswap⟩ := h s hallowed
  obtain ⟨u, hu, hswap'⟩ := h t (hswap.wordAllowed hallowed)
  refine ⟨u, ?run, hswap.register_twice hswap', hswap.memory_twice hswap', (exec_unchanged ht).trans (exec_unchanged hu)⟩
  case run => rw [execAll_cons_of_next ht, execAll_cons_of_next hu, execAll]

/-- R32: H and L are the bytes of HL. -/
theorem State.h_l_of_hl_eq {s : State} {v : Word} (h : s.hl = v) : s.h = hiByte v ∧ s.l = loByte v := by
  rw [← h, State.hl, hiByte_joinBytes, loByte_joinBytes]
  exact ⟨rfl, rfl⟩

/-! ## The exchanges, once (R381, R384, R385) and twice (R386) -/

/-- Settles O51: EX DE,HL by its equation, the three stack exchanges by `SwapsTop`. -/
theorem pairAndStackExchanges : Obligations.PairAndStackExchanges := by
  refine fun s => ⟨⟨_, exec_exDEHL s, rfl, rfl, rfl, rfl, exec_unchanged (exec_exDEHL s)⟩, fun hallowed =>
    ⟨?HL, exAtSPIX_exchangesTop.exec_toNat hallowed, exAtSPIY_exchangesTop.exec_toNat hallowed⟩⟩
  obtain ⟨t, hexec, hswap⟩ := exAtSPHL_exchangesTop s hallowed
  obtain ⟨hh, hl⟩ := State.h_l_of_hl_eq hswap.register
  exact ⟨t, hexec, hl.trans (loByte_joinBytes _ _), hh.trans (hiByte_joinBytes _ _), hswap.low.trans (loByte_joinBytes _ _),
    hswap.high.trans (hiByte_joinBytes _ _), hswap.outside, exec_unchanged hexec⟩

/-- Settles O52: the three exchanges between registers by their equations; a stack exchange gives back the register and
every byte (`ExchangesTop.execAll_twice`), and its frame holds the rest. -/
theorem exchangesAreInvolutions : Obligations.ExchangesAreInvolutions := by
  refine fun s => ⟨rfl, rfl, ?exDEHL, fun hallowed i hi => ?atSP⟩
  case exDEHL => rw [execAll_cons_of_next (exec_exDEHL s), execAll_cons_of_next (exec_exDEHL _), execAll]
  case atSP =>
    simp only [List.mem_cons, List.not_mem_nil, or_false] at hi
    rcases hi with rfl | rfl | rfl
    · obtain ⟨u, hrun, hreg, hmem, hframe⟩ := exAtSPHL_exchangesTop.execAll_twice hallowed
      obtain ⟨hh, hl⟩ := State.h_l_of_hl_eq hreg
      exact ⟨u, hrun, ((hframe.of_cons (hh.trans (hiByte_joinBytes _ _))).of_cons (hl.trans (loByte_joinBytes _ _))).of_cons
        hmem⟩
    · obtain ⟨u, hrun, hreg, hmem, hframe⟩ := exAtSPIX_exchangesTop.execAll_twice hallowed
      exact ⟨u, hrun, (hframe.of_cons hreg).of_cons hmem⟩
    · obtain ⟨u, hrun, hreg, hmem, hframe⟩ := exAtSPIY_exchangesTop.execAll_twice hallowed
      exact ⟨u, hrun, (hframe.of_cons hreg).of_cons hmem⟩

end Sys2Proof.Machine

/-!
PROOFS of the statements of 48_misc_control.md: CPL, CCF, SCF and NEG (O53), HALT (O10), and the instructions without an
effect (O11). NEG is `aluA` of `sub8` from 0, so that its flags are read off the law of `sub8` in whole numbers.
-/
namespace Sys2Proof.Machine

/-! ## Accumulator and flags (R391 to R394) -/

/-- R391: the complement of a byte as a number. -/
theorem byte_complement_toNat (v : Byte) : (v ^^^ 0xFF).toNat = 255 - v.toNat := by
  have hall : (0xFF : Byte) = BitVec.allOnes 8 := rfl
  rw [hall, BitVec.xor_allOnes, BitVec.toNat_not]

/-- R394: what `SubtractsExactly` says of a byte subtracted from 0. -/
theorem SubtractsExactly.of_zero {v res : Byte} {fl : Flags} (h : SubtractsExactly .z80 0 v false res fl) :
    (fl.c = true ↔ v ≠ 0x00) ∧ (fl.pv = true ↔ v = 0x80) ∧ (fl.h = true ↔ v.toNat % 16 ≠ 0) := by
  obtain ⟨hres, -, -, hh, ⟨hpv, -⟩, -, hc⟩ := h
  have hv := v.isLt
  have hzero : (0 : Byte).toNat = 0 := rfl
  rw [hzero, Bool.toNat_false] at hres hh hc
  refine ⟨?carry, ?overflow, ?half⟩
  case carry =>
    rw [hc, ne_eq, BitVec.toNat_eq, hzero]
    omega
  case overflow =>
    have hmin : (0x80 : Byte).toNat = 128 := rfl
    rw [hpv rfl, BitVec.toNat_eq, hmin, byte_toInt, byte_toInt, byte_toInt, hzero, Bool.toNat_false]
    split <;> split <;> omega
  case half =>
    rw [hh]
    omega

/-- Settles O53: CPL, CCF and SCF by their meaning, NEG by the law of `sub8`; the frames are those of `exec`. -/
theorem accumulatorAndFlagInstructions : Obligations.AccumulatorAndFlagInstructions := by
  refine fun s => ⟨⟨_, rfl, byte_complement_toNat s.a, rfl, rfl, exec_unchanged (i := .cpl) rfl⟩,
    ⟨_, rfl, rfl, rfl, rfl, exec_unchanged (i := .ccf) rfl⟩, ⟨_, rfl, rfl, rfl, rfl, exec_unchanged (i := .scf) rfl⟩,
    ⟨_, rfl, ?neg⟩⟩
  have hsub : SubtractsExactly .z80 0 s.a false (s.aluA (sub8 .z80 0 s.a false)).a (s.aluA (sub8 .z80 0 s.a false)).f :=
    sub8_exact .z80 0 s.a false _ _
  obtain ⟨hc, hpv, hh⟩ := hsub.of_zero
  exact ⟨hsub, hc, hpv, hh, s.aluA_unchanged _⟩

/-! ## CPU control (R396 to R402) -/

/-- R396: 0x76 is HALT in both generations and in every tier. -/
theorem decode_halt (p : Params) (b1 b2 b3 : Byte) : decode p 0x76 b1 b2 b3 = .ok .halt 1 := by
  refine decode_eq_ok.mpr ⟨?gen, decodeTables_encode .halt [b1, b2, b3], ?tier⟩
  case gen => cases p.gen <;> rfl
  case tier => cases p.tierC <;> rfl

/-- R13: the fetch touches PC and R alone. -/
theorem State.setPCAndR_unchanged (s : State) (pc : Word) (r : Byte) : Unchanged [.pc, .r] s { s with pc := pc, r := r } := by
  intro k hk
  cases k <;> first | rfl | exact fun _ => rfl | exact absurd (by decide) hk

/-- R76: the fetch of one byte never crosses the top of memory. -/
theorem State.fetchAllowed_one (s : State) : s.fetchAllowed 1 := .inr s.pc.isLt

/-- Settles O10: the step executes HALT after its one byte is fetched. -/
theorem haltEndsTheRun : Obligations.HaltEndsTheRun := by
  intro s hrun hbyte
  have hstep := stepRunsDecoded s .halt 1 hrun (by rw [hbyte]; exact decode_halt _ _ _ _) s.fetchAllowed_one
  refine ⟨_, hstep, rfl, rfl, rfl, rfl, ?frame, rfl⟩
  exact (exec_unchanged (i := .halt) (s := s) rfl).append (State.setPCAndR_unchanged _ _ _)

/-- Settles O11: each of the six answers the state it is given. -/
theorem noEffectInstructions : Obligations.NoEffectInstructions := by
  intro s i
  revert i
  exact List.map_inj_left.mp rfl

end Sys2Proof.Machine

/-!
PROOFS of the statements of 49_io.md not settled above: the I/O trace (O18), the single port instructions (O56) and INI,
IND, OUTI and OUTD (O57). That the trace grows at its end is shown of the twelve I/O instructions alone; of the others the
frame says that it stays, since `Instr.touched` lists it for those twelve only (`Instr.touched_environment`).
-/
namespace Sys2Proof

open Sys2Proof.Machine

/-! ## Who writes the I/O trace and the parameters (R3, R70, R410, R411) -/

/-- The instructions of 49_io.md. -/
def Instr.isIo : Instr → Bool
  | .inAAtN _ | .outAtNA _ | .inRAtC _ | .outAtCR _ | .ini | .ind | .inir | .indr | .outi | .outd | .otir | .otdr => true
  | _ => false

/-- R3, R70: of the machine's environment the I/O instructions can change the trace, and no instruction the parameters. -/
theorem Instr.touched_environment (i : Instr) :
    i.touched.filter (· ∈ [Field.params, .ioTrace]) = if i.isIo = true then [.ioTrace] else [] := by
  cases i
  case ldRR r _ | ldRN r _ | ldRAtHL r | ldRAtIX r _ | ldRAtIY r _ | incR r | decR r | rlcR r | rrcR r | rlR r | rrR r
      | slaR r | sraR r | srlR r | resR _ r | setR _ r | inRAtC r | ldSSNN r _ | ldSSAtNN r _ | incSS r | decSS r | popQQ r =>
    cases r <;> rfl
  all_goals rfl

theorem Instr.params_not_mem_touched (i : Instr) : Field.params ∉ i.touched := by
  intro hmem
  have henv : Field.params ∈ i.touched.filter (· ∈ [Field.params, .ioTrace]) := List.mem_filter.mpr ⟨hmem, rfl⟩
  rw [i.touched_environment] at henv
  exact absurd henv (by split <;> decide)

theorem Instr.isIo_of_ioTrace_mem_touched {i : Instr} (hmem : Field.ioTrace ∈ i.touched) : i.isIo = true := by
  have henv : Field.ioTrace ∈ i.touched.filter (· ∈ [Field.params, .ioTrace]) := List.mem_filter.mpr ⟨hmem, rfl⟩
  rw [i.touched_environment] at henv
  by_contra hio
  rw [if_neg hio] at henv
  nomatch henv

end Sys2Proof

namespace Sys2Proof.Machine

/-- R3: no instruction changes the parameters. -/
theorem exec_params {i : Instr} {s t : State} (h : exec i s = .next t) : t.params = s.params :=
  exec_unchanged h .params i.params_not_mem_touched

/-- R70: an instruction that is not of 49_io.md keeps the I/O trace. -/
theorem exec_ioTrace_of_not_isIo {i : Instr} {s t : State} (h : exec i s = .next t) (hio : i.isIo = false) :
    t.ioTrace = s.ioTrace :=
  exec_unchanged h .ioTrace fun hmem => Bool.false_ne_true (hio.symm.trans (Instr.isIo_of_ioTrace_mem_touched hmem))

/-- R231: a loop whose body only adds events to the trace only adds events to it. -/
theorem repeatUntil_extends_ioTrace {body : State → State} (hbody : ∀ u : State, u.ioTrace <+: (body u).ioTrace)
    (stop : State → Bool) (fuel : Nat) (s : State) : s.ioTrace <+: (repeatUntil body stop fuel s).ioTrace :=
  repeatUntil_invariant (P := fun u => s.ioTrace <+: u.ioTrace) stop (fun u hu => hu.trans (hbody u)) fuel
    ⟨[], List.append_nil _⟩

theorem State.inputOnce_extends_ioTrace (step : Word) (s : State) : s.ioTrace <+: (s.inputOnce step).ioTrace :=
  ⟨_, rfl⟩

theorem State.outputOnce_extends_ioTrace (step : Word) (s : State) : s.ioTrace <+: (s.outputOnce step).ioTrace :=
  ⟨_, rfl⟩

/-- R410, R411: an instruction adds its events at the end of the trace. -/
theorem exec_extends_ioTrace {i : Instr} {s t : State} (h : exec i s = .next t) : s.ioTrace <+: t.ioTrace := by
  cases hio : i.isIo
  case false => rw [exec_ioTrace_of_not_isIo h hio]
  case true =>
    refine (nextHas_iff (p := fun u => s.ioTrace <+: u.ioTrace)).mp ?_ t h
    clear h
    cases i
    case inAAtN | outAtNA | outAtCR | ini | ind | outi | outd => exact ⟨_, rfl⟩
    case inRAtC rd =>
      change s.ioTrace <+: ((s.recordIn s.c).setR rd (s.portValue s.c)).ioTrace
      rw [State.setR_ioTrace]
      exact ⟨_, rfl⟩
    case inir | indr => exact repeatUntil_extends_ioTrace (State.inputOnce_extends_ioTrace _) _ _ s
    case otir | otdr => exact repeatUntil_extends_ioTrace (State.outputOnce_extends_ioTrace _) _ _ s
    all_goals nomatch hio

/-- Settles O18: events are added at the end, and the frame lists the trace for the twelve alone. -/
theorem traceGrowsByIoOnly : Obligations.TraceGrowsByIoOnly := by
  intro i s t h
  obtain ⟨events, hevents⟩ := exec_extends_ioTrace h
  refine ⟨⟨events, hevents.symm⟩, fun hchanged => ?_⟩
  have hio : i.isIo = true := by
    by_contra hnot
    exact hchanged (exec_ioTrace_of_not_isIo h (Bool.eq_false_iff.mpr hnot))
  clear h hevents hchanged
  cases i
  case inAAtN | outAtNA | inRAtC | outAtCR | ini | ind | inir | indr | outi | outd | otir | otdr => simp
  all_goals nomatch hio

/-! ## Single transfers (R412 to R415) -/

theorem State.getR_byteFlags (s : State) (v : Byte) (k : Reg) : (s.byteFlags v).getR k = s.getR k := by cases k <;> rfl

/-- R414: S, Z and PV are the byte's. -/
theorem State.byteFlags_means (s : State) (v : Byte) : ByteFlags v (s.byteFlags v).f := ByteFlags.of_eq rfl rfl rfl

/-- Settles O56: each instruction by its meaning; the register of `IN r,(C)` is written between the event and the flags. -/
theorem singlePortTransfers : Obligations.SinglePortTransfers := by
  refine fun s n r => ⟨⟨_, rfl, rfl, rfl, exec_unchanged (i := .inAAtN n) rfl⟩, ⟨_, rfl, rfl, s.setTrace_unchanged _⟩,
    ⟨_, rfl, ?inRAtC⟩, ⟨_, rfl, rfl, s.setTrace_unchanged _⟩⟩
  rw [State.getR_byteFlags, State.getR_setR_same, State.byteFlags_ioTrace, State.setR_ioTrace]
  exact ⟨rfl, rfl, State.byteFlags_means _ _, rfl, rfl,
    (exec_unchanged (i := .inRAtC r) rfl).mono fun _ hmem => (List.Perm.swap _ _ _).subset hmem⟩

/-! ## Block transfers (R416, R417, R420, R421) -/

/-- R416: Z says of any state whose flags a block transfer writes whether its B is 0. -/
theorem State.blockIoFlags_z (s : State) : s.blockIoFlags.f.z = true ↔ s.blockIoFlags.b = 0 := decide_eq_true_iff

/-- Settles O57: the two inputs are `inputOnce`, the two outputs `outputOnce`, each with the flags of `blockIoFlags`. -/
theorem blockPortTransferOnce : Obligations.BlockPortTransferOnce := by
  refine fun s => ⟨fun move hmem => ?input, fun move hmem => ?output⟩
  case input =>
    have hexec : exec move.1 s = .next (s.inputOnce move.2).blockIoFlags := by
      revert move
      exact List.map_inj_left.mp rfl
    exact ⟨_, hexec, s.readByte_writeByte_same _ _, rfl, State.inputOnce_outside move.2 s, s.inputOnce_hl _, rfl,
      State.blockIoFlags_z _, rfl, (s.inputOnce_unchanged _).thenFlags (State.blockIoFlags_unchanged _)⟩
  case output =>
    have hexec : exec move.1 s = .next (s.outputOnce move.2).blockIoFlags := by
      revert move
      exact List.map_inj_left.mp rfl
    exact ⟨_, hexec, rfl, s.outputOnce_hl _, rfl, State.blockIoFlags_z _, rfl,
      (s.outputOnce_unchanged _).thenFlags (State.blockIoFlags_unchanged _)⟩

end Sys2Proof.Machine

/-!
PROOFS of the statements of 60_exceptions.md: the DecodeError (O8) and the steps that are refused (O9). Where the word that
an instruction accesses has a meaning, or it accesses none, its execute phase answers a next state
(`exec_next_of_wordAllowed`); with `exec_of_wordAccess` that says of every instruction when it is refused.
-/
namespace Sys2Proof.Machine

/-! ## DecodeError (R431 to R434) -/

/-- R431: where the bytes at PC do not decode and may be fetched, a step of a run takes the exception. -/
theorem step_of_decodeNext_error {s : State} {why : DecodeReason} {len : Nat} (hrun : s.status = .running)
    (hdec : s.decodeNext = .error why len) (hfetch : s.fetchAllowed len) :
    step s = .next (s.takeDecodeError (s.fetchBytes len).1) := by
  have hfree : s.fetchForbidden len = false := State.fetchForbidden_eq_false.mpr hfetch
  simp only [step, hrun, State.cycle, hdec, Decoded.length, hfree]

/-- R432 to R434: the exception touches the run status, PC, R and the draw counter. -/
theorem State.takeDecodeError_unchanged (s : State) (bytes : List Byte) :
    Unchanged [.status, .pc, .r, .draws] s (s.takeDecodeError bytes) := by
  intro k hk
  cases k <;> first | rfl | exact fun _ => rfl | exact absurd (by decide) hk

/-- Settles O8: the record holds the bytes that `fetchBytes` reads. -/
theorem stepTakesDecodeError : Obligations.StepTakesDecodeError := fun s _ len hrun hdec hfetch =>
  ⟨_, (s.fetchBytes len).1, step_of_decodeNext_error hrun hdec hfetch, rfl, s.fetchBytes_length len,
    fun k hk => s.fetchBytes_getElem? len k hk, s.takeDecodeError_unchanged _⟩

/-! ## Refused steps (R76, R430, log 13) -/

/-- R76: a step of a run whose fetch has no meaning is refused. -/
theorem step_of_not_fetchAllowed {s : State} (hrun : s.status = .running)
    (hfetch : ¬ s.fetchAllowed s.decodeNext.length) : step s = .refused .wrapsAtTop := by
  have hforbidden : s.fetchForbidden s.decodeNext.length = true := by
    rw [← Bool.not_eq_false, State.fetchForbidden_eq_false]
    exact hfetch
  simp only [step, hrun, State.cycle, hforbidden]

/-- R430: an instruction that accesses no word answers a next state. -/
theorem exec_next_of_wordAccess_none {i : Instr} {s : State} (h : wordAccess i s = none) : ∃ t : State, exec i s = .next t := by
  cases i
  case ldHLAtNN | ldAtNNHL | ldSSAtNN | ldAtNNSS | ldIXAtNN | ldAtNNIX | ldIYAtNN | ldAtNNIY | pushQQ | pushIX | pushIY | call
      | rst | popQQ | popIX | popIY | ret | reti | retn | exAtSPHL | exAtSPIX | exAtSPIY =>
    nomatch h
  case callCC cc nn =>
    rw [wordAccess_callCC, ite_eq_right_iff] at h
    exact ⟨s, (exec_callCC cc nn s).trans (if_neg fun hcc => nomatch h hcc)⟩
  case retCC cc =>
    rw [wordAccess_retCC, ite_eq_right_iff] at h
    exact ⟨s, (exec_retCC cc s).trans (if_neg fun hcc => nomatch h hcc)⟩
  all_goals exact ⟨_, rfl⟩

/-- R76, R430: an instruction answers a next state where the word it may access has a meaning. -/
theorem exec_next_of_wordAllowed {i : Instr} {s : State} (h : ∀ addr, wordAccess i s = some addr → s.wordAllowed addr) :
    ∃ t : State, exec i s = .next t := by
  cases haccess : wordAccess i s with
  | none => exact exec_next_of_wordAccess_none haccess
  | some addr =>
    obtain ⟨t, ht⟩ := exec_of_wordAccess haccess
    exact ⟨t, ht.trans (State.afterWordAccess_of_allowed t (h addr haccess))⟩

/-- R76: a step of a run that crosses the top of memory is refused, in its fetch or in its execute phase. -/
theorem step_of_crossesTop {s : State} (hrun : s.status = .running) (hcross : s.crossesTop) :
    step s = .refused .wrapsAtTop := by
  by_cases hfetch : s.fetchAllowed s.decodeNext.length
  case neg => exact step_of_not_fetchAllowed hrun hfetch
  case pos =>
    obtain ⟨i, len, addr, hdec, haccess, hword⟩ := hcross.resolve_left (not_not_intro hfetch)
    rw [hdec] at hfetch
    rw [step_of_decodeNext_ok hrun hdec hfetch, State.fetchBytes_state]
    obtain ⟨t, ht⟩ := exec_of_wordAccess ((wordAccess_fetched i s _ _).trans haccess)
    exact ht.trans (State.afterWordAccess_of_not_allowed t hword)

/-- R430, R431, R3: every other step of a run answers a next state under the same parameters. -/
theorem step_next_of_not_crossesTop {s : State} (hrun : s.status = .running) (hcross : ¬ s.crossesTop) :
    ∃ t : State, step s = .next t ∧ t.params = s.params := by
  obtain ⟨hfetch, hword⟩ := not_or.mp hcross
  rw [not_not] at hfetch
  cases hdec : s.decodeNext with
  | error why len =>
    rw [hdec] at hfetch
    exact ⟨_, step_of_decodeNext_error hrun hdec hfetch, rfl⟩
  | ok i len =>
    rw [hdec] at hfetch
    rw [step_of_decodeNext_ok hrun hdec hfetch, State.fetchBytes_state]
    refine (exec_next_of_wordAllowed fun addr haccess => ?allowed).imp fun t ht => ⟨ht, (exec_params ht :)⟩
    rw [wordAccess_fetched] at haccess
    by_contra hnot
    exact hword ⟨i, len, addr, hdec, haccess, hnot⟩

/-- Settles O9: outside a run a step changes nothing, and in a run it is refused exactly where it crosses the top. -/
theorem everyStepCompletes : Obligations.EveryStepCompletes := by
  refine fun s => ⟨step_of_crossesTop, fun hnot => ?completes⟩
  by_cases hrun : s.status = .running
  case neg => exact ⟨s, step_of_not_running hrun, rfl⟩
  case pos => exact step_next_of_not_crossesTop hrun fun hcross => hnot ⟨hrun, hcross⟩

end Sys2Proof.Machine

/-!
PROOFS of the statement of 70_reset_and_hazards.md: the `states` output (O59). The iterations of a repeating instruction are
the second halves of `repeat_countedOut`, `repeat_portsDone` and `repeat_compareDone`, whose first halves settled what the
instruction does.
-/
namespace Sys2Proof.Machine

/-! ## The `states` output (R475) -/

/-- R358, R475: the branch of DJNZ is taken unless B counts down to 0. -/
theorem branchTaken_djnz (e : Byte) (s : State) : branchTaken (.djnz e) s = true ↔ s.b.toNat ≠ 1 := by
  change decide (s.b - 1 ≠ 0) = true ↔ _
  rw [decide_eq_true_iff]
  bv_omega

/-- R238, R239: a repeated compare counts iterations up to the first match, or to BC = 0. -/
theorem repeatCount_compareDone (step : Word) (s : State) :
    ∃ k < s.countBC, repeatCount (State.compareOnce step) State.compareDone repeatFuelBC s = k + 1 ∧
      (∀ j < k, s.readByte (addrAfter s.hl step j) ≠ s.a) ∧
      (k + 1 = s.countBC ∨ s.readByte (addrAfter s.hl step k) = s.a) := by
  obtain ⟨k, hk, -, hcount, hgo, hend⟩ := repeat_compareDone (State.compareOnce_bc step) s
  have hmatch : ∀ j, ((State.compareOnce step)^[j + 1] s).f.z = true ↔ s.a = s.readByte (addrAfter s.hl step j) :=
    fun j => (s.compare_iterate_comparedWith step j).1
  refine ⟨k, hk, hcount, fun j hj heq => ?before, hend.imp_right fun hz => ((hmatch k).mp hz).symm⟩
  exact Bool.false_ne_true ((hgo j hj).symm.trans ((hmatch j).mpr heq.symm))

/-- R475: an instruction that does not repeat counts one iteration. -/
theorem iterations_of_not_repeating {i : Instr} (s : State)
    (h : i ∉ [Instr.ldir, .lddr, .cpir, .cpdr, .inir, .indr, .otir, .otdr]) : iterations i s = 1 := by
  cases i
  case ldir | lddr | cpir | cpdr | inir | indr | otir | otdr => exact absurd (by decide) h
  all_goals rfl

/-- Settles O59: the conditions by definition, and the iterations by the loop laws. -/
theorem statesFollowBranchAndIterations : Obligations.StatesFollowBranchAndIterations := by
  refine ⟨fun _ _ => Nat.succ_pos _, fun i s s' hbranch hiter => ?states,
    fun s cc cj nn e => ⟨rfl, rfl, rfl, rfl, branchTaken_djnz e s⟩, fun s i hi => ?transfer, fun s i hi => ?ports,
    fun s scan hscan => ?compare, fun s i h => iterations_of_not_repeating s h⟩
  case states => rw [statesOf, hbranch, hiter, statesOf]
  case transfer =>
    simp only [List.mem_cons, List.not_mem_nil, or_false] at hi
    rcases hi with rfl | rfl
    all_goals exact (repeat_countedOut (State.transferOnce_bc _) s).2
  case ports =>
    simp only [List.mem_cons, List.not_mem_nil, or_false] at hi
    rcases hi with rfl | rfl | rfl | rfl
    · exact (repeat_portsDone (State.inputOnce_b 1) s).2
    · exact (repeat_portsDone (State.inputOnce_b (-1)) s).2
    · exact (repeat_portsDone (State.outputOnce_b 1) s).2
    · exact (repeat_portsDone (State.outputOnce_b (-1)) s).2
  case compare =>
    have hcount : iterations scan.1 s = repeatCount (State.compareOnce scan.2) State.compareDone repeatFuelBC s := by
      revert scan
      exact List.map_inj_left.mp rfl
    rw [hcount]
    exact repeatCount_compareDone scan.2 s

end Sys2Proof.Machine
